-- ==== Sys2Proof/Word.lean ====
section
/-! DEFINITION. The word types of the block: every quantity is an unsigned binary number of a stated width (spec 00_scope R8, R9).
Where a width is an elaboration parameter (R6), the type here has the largest width its range allows. -/

namespace Sys2Proof

/-- A host data word (`h_wdata`, `h_rdata`), a 32-bit counter or a 32-bit register. -/
abbrev Word := BitVec 32

/-- A register word address on the host bus (`h_addr`). -/
abbrev RegAddr := BitVec 6

/-- An acquired sample: `SAMPLE_W` ≤ 16 bits (R6). -/
abbrev Sample := BitVec 16

/-- A table entry or DAC code: `DAC_W` ≤ 16 bits (R6). -/
abbrev Code := BitVec 16

/-- An RB pointer: `CAP_LOG2 + 1` ≤ 16 bits (R6, R22). -/
abbrev Pointer := BitVec 16

/-- A DMA source-buffer address: `ADDR_W` ≤ 32 bits (R6). -/
abbrev SrcAddr := BitVec 32

/-- A length or index of `LEN_W` = 16 bits (R6). -/
abbrev Len := BitVec 16

/-- A channel identifier of `CHAN_W` = 8 bits (R6). -/
abbrev Chan := BitVec 8

/-- The three sticky fault flags (10_state R25, R39). -/
abbrev FaultBits := BitVec 3

end Sys2Proof
end

