-- ==== Sys2Proof/Machine/Ports.lean ====
section
/-! DEFINITION. The block's input and output ports (spec 10_state R30, R31), as plain records of the values they carry in one cycle. -/

namespace Sys2Proof.Machine

/-- The input ports, sampled once per cycle (R30). `dmaPtr` is a port of `ADDR_W` bits and `srcData` one of `SAMPLE_W`
bits: the operations that use them keep that many of their low bits. -/
structure Inputs where
  /-- synchronous reset -/
  rst : Bool
  /-- a bus transaction is presented this cycle -/
  hSel : Bool
  /-- 1 = write, 0 = read -/
  hWe : Bool
  /-- register word address -/
  hAddr : RegAddr
  /-- write data -/
  hWdata : Word
  /-- a block completed -/
  dmaDone : Bool
  /-- source-buffer address of the completed block -/
  dmaPtr : SrcAddr
  /-- its length in samples -/
  dmaLen : Len
  /-- the sample at address `src_addr` -/
  srcData : Sample
  /-- the DAC accepts the pending write this cycle -/
  dacReady : Bool
  /-- the acquisition hardware accepts the configuration -/
  acqCfgOk : Bool
deriving DecidableEq, Repr, Inhabited

/-- The output ports (R31). -/
structure Outputs where
  hRdata : Word
  srcRd : Bool
  srcAddr : SrcAddr
  dmaAck : Bool
  acqArm : Bool
  acqChanO : Chan
  acqRateO : Word
  acqBlkO : Len
  dacValid : Bool
  dacData : Code
  dacChan : Chan
deriving DecidableEq, Repr

/-- Every input port at 0: no reset, no transaction, no event. -/
def Inputs.quiet : Inputs where
  rst := false
  hSel := false
  hWe := false
  hAddr := 0
  hWdata := 0
  dmaDone := false
  dmaPtr := 0
  dmaLen := 0
  srcData := 0
  dacReady := false
  acqCfgOk := false

/-- The levels of an assembler line with no environment line before it (30_encoding R88: `dac_ready` and `acq_cfg_ok`
default to 1, nothing else is asserted). -/
def Inputs.idle : Inputs := { Inputs.quiet with dacReady := true, acqCfgOk := true }

/-- Every output port at 0: what the block drives in the reset state (70_reset_and_hazards R311). -/
def Outputs.zero : Outputs where
  hRdata := 0
  srcRd := false
  srcAddr := 0
  dmaAck := false
  acqArm := false
  acqChanO := 0
  acqRateO := 0
  acqBlkO := 0
  dacValid := false
  dacData := 0
  dacChan := 0

end Sys2Proof.Machine
end

