-- ==== Sys2Proof/Config.lean ====
section
/-! DEFINITION. What an implementation fixes (the elaboration parameters of spec 00_scope R6) and the free values: constants without
a body, so that nothing can be proved of which value they take. -/

namespace Sys2Proof

/-- The elaboration parameters of R6 that the block's hardware depends on: fixed when the block is built, never changed
while it runs. They stand in a field of the state, so that every statement holds for every elaboration (log entry 3). -/
structure Params where
  /-- RB capacity is `2 ^ capLog2` samples -/
  capLog2 : Nat
  /-- width of one acquired sample -/
  sampleW : Nat
  /-- width of one table entry or DAC code -/
  dacW : Nat
  /-- table RAM depth is `2 ^ tblLog2` entries -/
  tblLog2 : Nat
  /-- width of a DMA source-buffer address -/
  addrW : Nat
deriving DecidableEq, Repr

/-- The default of each parameter (R6). -/
def Params.defaults : Params := ⟨10, 12, 8, 8, 16⟩

/-- The ranges of R6. -/
abbrev Params.legal (p : Params) : Prop :=
  p.capLog2 ≤ 15 ∧ (1 ≤ p.sampleW ∧ p.sampleW ≤ 16) ∧ (1 ≤ p.dacW ∧ p.dacW ≤ 16) ∧ p.tblLog2 ≤ 16 ∧
    (1 ≤ p.addrW ∧ p.addrW ≤ 32)

/-- The byte order of a byte-addressed bus (20_memory R61). The spec names no values for `HOST_ENDIAN`; these two are the model's
(PRESUMED, log entry 12). -/
inductive ByteOrder where
  /-- the least significant byte at the lowest address -/
  | little
  /-- the most significant byte at the lowest address -/
  | big
deriving DecidableEq, Repr

/-- The OPEN parameters of R6, which no rule of the block's own hardware reads: every definition of the host's side that uses one
takes this as an argument (log entry 12). -/
structure HostParams where
  /-- `F_CLK`, the clock frequency in Hz -/
  fClk : Rat
  /-- `MAX_BATCH`, the largest batch of one TICK -/
  maxBatch : Nat
  /-- `HOST_ENDIAN`, the byte order of the host bus the block is integrated behind -/
  hostEndian : ByteOrder
deriving DecidableEq, Repr

/-- The ranges of R6: `F_CLK > 0`, `MAX_BATCH ≥ 1`. -/
abbrev HostParams.legal (h : HostParams) : Prop := 0 < h.fClk ∧ 1 ≤ h.maxBatch

/-- FREE VALUE. The port values the environment drives in the cycle numbered by the argument, when the state's list of
port values has none left: "each of which drives input ports freely every cycle" (R5). Log entry 1. -/
opaque Config.freeInputs : Nat → Machine.Inputs

/-- FREE VALUE. What a slot of `rb_mem` holds after power-up (70_reset_and_hazards R313, 93_implementation_defined
entry 8: any value). Its low `SAMPLE_W` bits are the slot's contents. Log entry 2. -/
opaque Config.rbPowerUp : Nat → Sample

/-- FREE VALUE. What an entry of `tbl_mem` holds after power-up, the same on every read until it is written
(70_reset_and_hazards R313, 93_implementation_defined entry 9). Its low `DAC_W` bits are the entry's contents, so it lies
in `[0, VMAX]`. Log entry 2. -/
opaque Config.tblPowerUp : Nat → Code

end Sys2Proof
end

