-- ==== Sys2Proof/Machine/Operands.lean ====
section
/-! DEFINITION. Operands: the arithmetic notation of spec 00_scope R9 (truncation, saturation, counting modulo), the quantities derived
from the elaboration parameters (10_state R27), and the operand fields of a host write (30_encoding R83). -/

namespace Sys2Proof.Machine

/-- `trunc_n(v) = v mod 2^n` (R9), kept in the type of `v`. -/
def truncTo {w : Nat} (n : Nat) (v : BitVec w) : BitVec w := BitVec.ofNat w (v.toNat % 2 ^ n)

/-- `C = 2^CAP_LOG2` (R27). -/
def capacity (p : Params) : Nat := 2 ^ p.capLog2

/-- `TBL_DEPTH = 2^TBL_LOG2` (R27). -/
def tblDepth (p : Params) : Nat := 2 ^ p.tblLog2

/-- `VMAX = 2^DAC_W − 1` (R27). -/
def vmax (p : Params) : Nat := 2 ^ p.dacW - 1

/-- `sat_VMAX(v) = min(v, VMAX)` (R9, R83), as a DAC code. -/
def satVmax (p : Params) (v : Word) : Code := BitVec.ofNat 16 (min v.toNat (vmax p))

/-- An RB pointer advanced by one, counting modulo `2C` (42_ring_buffer R160). -/
def nextPtr (p : Params) (q : Pointer) : Pointer := BitVec.ofNat 16 ((q.toNat + 1) % (2 * capacity p))

/-- The slot of `rb_mem` an RB pointer names: `p mod C` (10_state R22). -/
def slotOf (p : Params) (q : Pointer) : Nat := q.toNat % capacity p

/-- The table load address after a TBL_DATA write: `trunc_TBL_LOG2(a + 1)` (41_waveform_table R142). -/
def nextTblAddr (p : Params) (a : BitVec 16) : BitVec 16 := BitVec.ofNat 16 ((a.toNat + 1) % tblDepth p)

/-- `WDATA[TBL_LOG2−1:0]` as a table load address (R83, 41_waveform_table R141). -/
def tblAddrOf (p : Params) (w : Word) : BitVec 16 := BitVec.ofNat 16 (w.toNat % tblDepth p)

/-- The source address of the `k`-th sample of a block: `trunc_ADDR_W(base + k)` (10_state R31, 20_memory R62). -/
def srcAddrOf (p : Params) (base : SrcAddr) (k : Len) : SrcAddr :=
  BitVec.ofNat 32 ((base.toNat + k.toNat) % 2 ^ p.addrW)

/-- Channel: `WDATA[7:0]` (R83). -/
def chanOf (w : Word) : Chan := w.extractLsb' 0 8

/-- Block size: `WDATA[15:0]` (R83). -/
def blkOf (w : Word) : Len := w.extractLsb' 0 16

/-- Table length: `WDATA[16:0]` (R83). -/
def tblLenOf (w : Word) : BitVec 17 := w.extractLsb' 0 17

/-- Clear mask of FAULT: `WDATA[2:0]` (R83). -/
def maskOf (w : Word) : FaultBits := w.extractLsb' 0 3

end Sys2Proof.Machine
end

