-- ==== Sys2Proof/Syntax.lean ====
section
/-! DEFINITION. The operations of the block, one constructor per row of spec/opcode_table.json (30_encoding R85). Operands are the
fields R83 gives them; ignored bits of a transaction are not operands. -/

namespace Sys2Proof

/-- The 46 operations of R85. -/
inductive Instr where
  -- host reads (format HTW, WE = 0)
  | rdId
  | rdParams
  | rdStatus
  | rdFault
  | rdRbCount
  | rdRbData
  | rdRbPtrs
  | rdOvfCnt
  | rdAcqChan
  | rdAcqRate
  | rdAcqBlk
  | rdAcqBlks
  | rdAcqSamples
  | rdAcqCur
  | rdSynChan
  | rdSynPeriod
  | rdSynIdx
  | rdSynPcnt
  | rdSynFires
  | rdTblLen
  | rdTblAddr
  | rdTblData
  | rdDacOut
  /-- a read of CMD or of a reserved address -/
  | rdRsvd (addr : RegAddr)
  -- host writes (format HTW, WE = 1)
  /-- the clear mask `WDATA[2:0]` -/
  | wrFault (mask : FaultBits)
  | wrAcqChan (chan : Chan)
  | wrAcqRate (rate : Word)
  | wrAcqBlk (blk : Len)
  | wrSynChan (chan : Chan)
  | wrSynPeriod (period : Word)
  | wrTblLen (n : BitVec 17)
  /-- the whole of `WDATA`: how many of its bits count depends on `TBL_LOG2` -/
  | wrTblAddr (a : Word)
  /-- the whole of `WDATA`: the value saturates to `VMAX` -/
  | wrTblData (v : Word)
  -- commands (a write to CMD)
  | cmdNop
  | cmdAcqStart
  | cmdAcqStop
  | cmdSynStart
  | cmdSynStop
  | cmdTblCommit
  /-- a reserved command code: the whole of `WDATA` -/
  | cmdRsvd (wdata : Word)
  /-- a write to a read-only or reserved address -/
  | wrIgnored (addr : RegAddr) (wdata : Word)
  -- port events (format PEV)
  | evReset
  /-- the operands `dma_ptr` and `dma_len` -/
  | evDmaDone (ptr : SrcAddr) (len : Len)
  -- internal events (format INT)
  /-- the operand `src_data` -/
  | evCopyBeat (data : Sample)
  | evFire
  | evDacAccept
deriving DecidableEq, Repr

end Sys2Proof
end

