-- ==== Sys2Proof/WellFormed.lean ====
section
/-! DEFINITION. Which terms of `Instr` are operations of the block: the catch-all rows take only the addresses and command codes that
no specific row takes (spec 30_encoding R85, R86). -/

namespace Sys2Proof

/-- The addresses of RD_RSVD (R85): CMD (0x02), 0x0F and 0x19 to 0x3F. -/
def readReserved (a : RegAddr) : Bool :=
  a.toNat = 0x02 || a.toNat = 0x0F || 0x19 ≤ a.toNat

/-- The addresses of WR_IGNORED (R85): 0x00, 0x01, 0x03, 0x05–0x08, 0x0C–0x0F, 0x12–0x14, 0x18–0x3F. -/
def writeIgnored (a : RegAddr) : Bool :=
  a.toNat ≤ 0x01 || a.toNat = 0x03 || (0x05 ≤ a.toNat && a.toNat ≤ 0x08) || (0x0C ≤ a.toNat && a.toNat ≤ 0x0F) ||
    (0x12 ≤ a.toNat && a.toNat ≤ 0x14) || 0x18 ≤ a.toNat

/-- The `WDATA` values of CMD_RSVD (R84): `WDATA[31:4] ≠ 0` or `WDATA[3:0]` in 6 to 15, that is, any value above 5. -/
def commandReserved (w : Word) : Bool :=
  w.toNat / 16 ≠ 0 || 0x6 ≤ w.toNat % 16

/-- The term is an operation of R85. -/
def Instr.WellFormed : Instr → Bool
  | .rdRsvd a => readReserved a
  | .wrIgnored a _ => writeIgnored a
  | .cmdRsvd w => commandReserved w
  | .rdId | .rdParams | .rdStatus | .rdFault | .rdRbCount | .rdRbData | .rdRbPtrs | .rdOvfCnt | .rdAcqChan
  | .rdAcqRate | .rdAcqBlk | .rdAcqBlks | .rdAcqSamples | .rdAcqCur | .rdSynChan | .rdSynPeriod | .rdSynIdx
  | .rdSynPcnt | .rdSynFires | .rdTblLen | .rdTblAddr | .rdTblData | .rdDacOut => true
  | .wrFault _ | .wrAcqChan _ | .wrAcqRate _ | .wrAcqBlk _ | .wrSynChan _ | .wrSynPeriod _ | .wrTblLen _
  | .wrTblAddr _ | .wrTblData _ => true
  | .cmdNop | .cmdAcqStart | .cmdAcqStop | .cmdSynStart | .cmdSynStop | .cmdTblCommit => true
  | .evReset | .evDmaDone _ _ | .evCopyBeat _ | .evFire | .evDacAccept => true

end Sys2Proof
end

