-- ==== Sys2Proof/Decode.lean ====
section
/-! DEFINITION. The three formats of spec 30_encoding (HTW R80, PEV R81, INT R82), the decoder of each, and the encoder. -/

namespace Sys2Proof
open Sys2Proof.Machine

/-- The words by which an operation is selected, with the data inputs that travel with it (R80, R81, R82). -/
inductive OpWord where
  /-- a host transaction word, written with ten hexadecimal digits: bit 38 `WE`, bits 37:32 `ADDR`, bits 31:0 `WDATA`;
  bit 39 belongs to no field -/
  | htw (w : BitVec 40)
  /-- a port event vector: bit 0 `rst`, bit 1 `h_sel`, bit 2 `dma_done`, bit 3 `dac_ready`, bit 4 `acq_cfg_ok`; operands
  `dma_ptr` and `dma_len` -/
  | pev (w : BitVec 5) (ptr : SrcAddr) (len : Len)
  /-- the internal event conditions: bit 0 `acq_busy`, bit 1 RUNNING and `pcnt = 0`, bit 2 `dac_valid`, bit 3 `dac_ready`;
  operand `src_data` -/
  | int (w : BitVec 4) (data : Sample)
deriving DecidableEq, Repr

/-- Why a word selects no single operation. -/
inductive DecodeError where
  /-- a host word with bit 39 set: an HTW has 39 bits (R80), and the spec gives such a word no meaning (DESIGN CHOICE, log entry 8) -/
  | hostWordTooLong
  /-- a port event vector with neither `rst` nor `dma_done` (R85: no PEV row matches) -/
  | noPortEvent
  /-- an INT word whose conditions select nothing (R85: no INT row matches) -/
  | noInternalEvent
  /-- an INT word that selects more than one operation: all of them act in the cycle (R81, R82) -/
  | severalInternalEvents
deriving DecidableEq, Repr

/-! ## Host transactions -/

/-- The specific read rows of R85, by `ADDR`. -/
def readRows : List (RegAddr × Instr) :=
  [(0x00, .rdId), (0x01, .rdParams), (0x03, .rdStatus), (0x04, .rdFault), (0x05, .rdRbCount), (0x06, .rdRbData),
   (0x07, .rdRbPtrs), (0x08, .rdOvfCnt), (0x09, .rdAcqChan), (0x0A, .rdAcqRate), (0x0B, .rdAcqBlk)] ++
  [(0x0C, .rdAcqBlks), (0x0D, .rdAcqSamples), (0x0E, .rdAcqCur), (0x10, .rdSynChan), (0x11, .rdSynPeriod),
   (0x12, .rdSynIdx), (0x13, .rdSynPcnt), (0x14, .rdSynFires), (0x15, .rdTblLen), (0x16, .rdTblAddr),
   (0x17, .rdTblData), (0x18, .rdDacOut)]

/-- The command rows of R84, by the whole of `WDATA`. -/
def commandRows : List (Word × Instr) :=
  [(0, .cmdNop), (1, .cmdAcqStart), (2, .cmdAcqStop), (3, .cmdSynStart), (4, .cmdSynStop), (5, .cmdTblCommit)]

/-- A read of register `a`: its own row, or the catch-all RD_RSVD (R85). -/
def decodeRead (a : RegAddr) : Instr := (readRows.lookup a).getD (.rdRsvd a)

/-- A write of `w` to CMD (R84): any `WDATA` of no command is CMD_RSVD. -/
def decodeCommand (w : Word) : Instr := (commandRows.lookup w).getD (.cmdRsvd w)

/-- A write of `w` to register `a`: its own row with the operand of R83, or the catch-all WR_IGNORED (R85, and the
dispatch table 40_cycle_and_bus R115). -/
def decodeWrite (a : RegAddr) (w : Word) : Instr :=
  if a = 0x02 then decodeCommand w
  else if a = 0x04 then .wrFault (maskOf w)
  else if a = 0x09 then .wrAcqChan (chanOf w)
  else if a = 0x0A then .wrAcqRate w
  else if a = 0x0B then .wrAcqBlk (blkOf w)
  else if a = 0x10 then .wrSynChan (chanOf w)
  else if a = 0x11 then .wrSynPeriod w
  else if a = 0x15 then .wrTblLen (tblLenOf w)
  else if a = 0x16 then .wrTblAddr w
  else if a = 0x17 then .wrTblData w
  else .wrIgnored a w

/-- The decoder of a host transaction word (R80, R85, R87): every 39-bit word is an operation (R86: none is illegal). -/
def decodeHtw (w : BitVec 39) : Instr :=
  if w.getLsbD 38 then decodeWrite (w.extractLsb' 32 6) (w.extractLsb' 0 32) else decodeRead (w.extractLsb' 32 6)

/-! ## Events -/

/-- The operation a port event vector selects, if any: `rst = 1` overrides every other bit (R81, R85). -/
def decodePev (w : BitVec 5) (ptr : SrcAddr) (len : Len) : Option Instr :=
  if w.getLsbD 0 then some .evReset
  else if w.getLsbD 2 then some (.evDmaDone ptr len)
  else none

/-- The operations an INT word selects (R82, R85), any subset of the three. The DAC accept stands before the firing:
see Machine/Cycle.lean. -/
def decodeInt (w : BitVec 4) (data : Sample) : List Instr :=
  (if w.getLsbD 0 then [.evCopyBeat data] else []) ++
    (if w.getLsbD 2 && w.getLsbD 3 then [.evDacAccept] else []) ++
    (if w.getLsbD 1 then [.evFire] else [])

/-- The one operation a word selects, or the name of why there is not exactly one. -/
def decode : OpWord → Except DecodeError Instr
  | .htw w => if w.getLsbD 39 then .error .hostWordTooLong else .ok (decodeHtw (w.extractLsb' 0 39))
  | .pev w ptr len =>
    match decodePev w ptr len with
    | some i => .ok i
    | none => .error .noPortEvent
  | .int w data =>
    match decodeInt w data with
    | [i] => .ok i
    | [] => .error .noInternalEvent
    | _ :: _ :: _ => .error .severalInternalEvents

/-! ## The encoder -/

/-- `HTW = WE·2^38 + ADDR·2^32 + WDATA` (R80), in ten hexadecimal digits. -/
def htwWord (we : Bool) (a : RegAddr) (w : Word) : BitVec 40 := 0#1 ++ BitVec.ofBool we ++ a ++ w

/-- A read of register `a`, with `WDATA` written as 0 (R80). -/
def readWord (a : RegAddr) : OpWord := .htw (htwWord false a 0)

/-- A write of `w` to register `a`. -/
def writeWord (a : RegAddr) (w : Word) : OpWord := .htw (htwWord true a w)

/-- The word that selects an operation (R85), with 0 in every bit that belongs to no operand. -/
def encode : Instr → OpWord
  | .rdId => readWord 0x00
  | .rdParams => readWord 0x01
  | .rdStatus => readWord 0x03
  | .rdFault => readWord 0x04
  | .rdRbCount => readWord 0x05
  | .rdRbData => readWord 0x06
  | .rdRbPtrs => readWord 0x07
  | .rdOvfCnt => readWord 0x08
  | .rdAcqChan => readWord 0x09
  | .rdAcqRate => readWord 0x0A
  | .rdAcqBlk => readWord 0x0B
  | .rdAcqBlks => readWord 0x0C
  | .rdAcqSamples => readWord 0x0D
  | .rdAcqCur => readWord 0x0E
  | .rdSynChan => readWord 0x10
  | .rdSynPeriod => readWord 0x11
  | .rdSynIdx => readWord 0x12
  | .rdSynPcnt => readWord 0x13
  | .rdSynFires => readWord 0x14
  | .rdTblLen => readWord 0x15
  | .rdTblAddr => readWord 0x16
  | .rdTblData => readWord 0x17
  | .rdDacOut => readWord 0x18
  | .rdRsvd a => readWord a
  | .wrFault m => writeWord 0x04 (m.zeroExtend 32)
  | .wrAcqChan c => writeWord 0x09 (c.zeroExtend 32)
  | .wrAcqRate r => writeWord 0x0A r
  | .wrAcqBlk b => writeWord 0x0B (b.zeroExtend 32)
  | .wrSynChan c => writeWord 0x10 (c.zeroExtend 32)
  | .wrSynPeriod p => writeWord 0x11 p
  | .wrTblLen n => writeWord 0x15 (n.zeroExtend 32)
  | .wrTblAddr a => writeWord 0x16 a
  | .wrTblData v => writeWord 0x17 v
  | .cmdNop => writeWord 0x02 0
  | .cmdAcqStart => writeWord 0x02 1
  | .cmdAcqStop => writeWord 0x02 2
  | .cmdSynStart => writeWord 0x02 3
  | .cmdSynStop => writeWord 0x02 4
  | .cmdTblCommit => writeWord 0x02 5
  | .cmdRsvd w => writeWord 0x02 w
  | .wrIgnored a w => writeWord a w
  | .evReset => .pev 0b00001 0 0
  | .evDmaDone ptr len => .pev 0b00100 ptr len
  | .evCopyBeat d => .int 0b0001 d
  | .evFire => .int 0b0010 0
  | .evDacAccept => .int 0b1100 0

/-! ## Words numbered as the opcode table numbers them -/

/-- Which format a table word of `nbits` bits is read in. A word of more than a byte is an HTW; 4 bits are an INT word and
5 bits a PEV word. One byte may be either: it is a PEV word where `rst` is set, or where `dma_done` is set without the
DAC-accept pair of bits 3:2 and without `h_sel` (bit 1), and an INT word otherwise (log entry 7). The data inputs that
travel with an event have no bits in the table and are 0. -/
def tableOpWord (nbits w : Nat) : Option OpWord :=
  if 8 < nbits then (if w < 2 ^ 40 then some (.htw (BitVec.ofNat 40 w)) else none)
  else if nbits = 5 then (if w < 2 ^ 5 then some (.pev (BitVec.ofNat 5 w) 0 0) else none)
  else if nbits = 4 then (if w < 2 ^ 4 then some (.int (BitVec.ofNat 4 w) 0) else none)
  else if w % 2 = 1 || (w / 4 % 4 = 1 && w / 2 % 2 = 0) then
    (if w < 2 ^ 5 then some (.pev (BitVec.ofNat 5 w) 0 0) else none)
  else (if w < 2 ^ 4 then some (.int (BitVec.ofNat 4 w) 0) else none)

/-- The operation the decoder reads from a word numbered as spec/opcode_table.json numbers it. -/
def decodeTableWord (nbits w : Nat) : Option Instr :=
  match tableOpWord nbits w with
  | none => none
  | some ow =>
    match decode ow with
    | .ok i => some i
    | .error _ => none

end Sys2Proof
end

