-- ==== Sys2Proof/Machine/State.lean ====
section
/-! DEFINITION. The state of the block (spec 10_state R22 to R25) as plain data, the reasons a step can stop, and the state right
after reset (70_reset_and_hazards R310). -/

namespace Sys2Proof.Machine

/-- The synthesis state machine (10_state R26). -/
inductive SynState where
  /-- 0: no table committed -/
  | uninit
  /-- 1: table committed, never started -/
  | ready
  /-- 2: a synthesis session runs -/
  | running
  /-- 3: the last session was stopped -/
  | stopped
deriving DecidableEq, Repr

/-- The result codes (60_exceptions R281). Codes 5 to 7 are never written, so they have no constructor. -/
inductive ResultCode where
  | ok
  | stateErr
  | cfgErr
  | notReady
  | badCmd
deriving DecidableEq, Repr

/-- One written word of a RAM: its address and its contents. The RAMs of the block are word-addressed (20_memory R60,
R61), one sample or one code a word, so a cell holds a word and not a byte (log entry 10). -/
abbrev MemCell := Nat × BitVec 16

/-- A RAM: the words written since power-up, addresses strictly rising. An unlisted word was never written (log entry 2). -/
abbrev Memory := List MemCell

/-- The canonical form of a RAM: addresses strictly rising. An unlisted address reads as "never written", which no entry
is, so two RAMs with the same contents are the same list. -/
abbrev Memory.wf (m : Memory) : Prop := List.Pairwise (fun a b => a.1 < b.1) m

/-- The state of the block. Fields in the order of 10_state R22 to R25, then the model's own. -/
structure State where
  /-- the elaboration parameters (00_scope R6); no operation changes them -/
  cfg : Params
  -- RB (R22)
  rbMem : Memory
  wp : Pointer
  rp : Pointer
  ovfCnt : Word
  -- ACQ (R23)
  acqRun : Bool
  acqBusy : Bool
  cpBase : SrcAddr
  cpLen : Len
  cpIdx : Len
  ackQ : Bool
  acqChan : Chan
  acqRate : Word
  acqBlk : Len
  acqBlks : Word
  acqSamples : Word
  -- SYN (R24)
  synSt : SynState
  tblMem : Memory
  tblLen : BitVec 17
  tblAddr : BitVec 16
  synChan : Chan
  synPeriod : Word
  pcnt : Word
  idx : Len
  synFires : Word
  dacValid : Bool
  dacData : Code
  -- common (R25)
  lastRes : ResultCode
  fault : FaultBits
  -- the model's own: ports and their schedule
  /-- the port values the environment drives in the coming cycles, the next cycle's first (log entry 1) -/
  env : List Inputs
  /-- the port values of the cycle in progress, or of the last one -/
  inp : Inputs
  /-- the output port values of the cycle in progress, or of the last one (R31) -/
  out : Outputs
  /-- how many cycles have begun: the argument of the free port values -/
  cycle : Nat
deriving DecidableEq, Repr

/-- Why the machine stops with a fault: never. "No operation of the block traps" (60_exceptions R286) and "there is no bus
error, no decode fault, no address fault" (R280), so there is no constructor (log entry 14). The runtime faults of R283
are sticky bits of `State.fault`, after which the block goes on. -/
inductive Fault where
deriving DecidableEq, Repr

/-- Why an instruction has no meaning. -/
inductive Refusal where
  /-- raised by `exec` for an operation the model gives no meaning; no arm of it does. Safe: the run stops -/
  | notModelled (mnemonic : String)
deriving DecidableEq, Repr

/-- The state right after reset (R310), of a block built with the default parameters (R6), no word of its RAMs written
since power-up. The model's own fields start at nothing (log entries 1, 3, 5, 6). -/
def State.reset : State where
  cfg := Params.defaults
  rbMem := []
  wp := 0
  rp := 0
  ovfCnt := 0
  acqRun := false
  acqBusy := false
  cpBase := 0
  cpLen := 0
  cpIdx := 0
  ackQ := false
  acqChan := 0
  acqRate := 0
  acqBlk := 0
  acqBlks := 0
  acqSamples := 0
  synSt := .uninit
  tblMem := []
  tblLen := 0
  tblAddr := 0
  synChan := 0
  synPeriod := 0
  pcnt := 0
  idx := 0
  synFires := 0
  dacValid := false
  dacData := 0
  lastRes := .ok
  fault := 0
  env := []
  inp := Inputs.quiet
  out := Outputs.zero
  cycle := 0

end Sys2Proof.Machine
end

