-- ==== Sys2Proof/Machine/Flags.lean ====
section
/-! DEFINITION. Flags and the packed read values: occupancy (spec 10_state R27), the STATUS, PARAMS, RB_PTRS, ACQ_CUR and DAC_OUT
words, the encodings of the synthesis state and of the result code, the fault bits. -/

namespace Sys2Proof.Machine

/-- The 2-bit encoding of `syn_st` (10_state R26). -/
def synCode : SynState → BitVec 2
  | .uninit => 0
  | .ready => 1
  | .running => 2
  | .stopped => 3

/-- The 3-bit result code (60_exceptions R281). -/
def resCode : ResultCode → BitVec 3
  | .ok => 0
  | .stateErr => 1
  | .cfgErr => 2
  | .notReady => 3
  | .badCmd => 4

/-- FAULT bit 0, ACQ_REENTRY (10_state R39, 60_exceptions R283). -/
def acqReentry : FaultBits := 0b001

/-- FAULT bit 1, ACQ_DESYNC. -/
def acqDesync : FaultBits := 0b010

/-- FAULT bit 2, SYN_REENTRY. -/
def synReentry : FaultBits := 0b100

/-- The occupied count `(wp − rp) mod 2C` (10_state R27): pointers count modulo `2C`, so the subtraction is done there. -/
def cnt (s : State) : Nat :=
  (s.wp.toNat + (2 * capacity s.cfg - s.rp.toNat % (2 * capacity s.cfg))) % (2 * capacity s.cfg)

/-- `empty(s)` (R27). -/
def rbEmpty (s : State) : Bool := cnt s = 0

/-- `full(s)` (R27). -/
def rbFull (s : State) : Bool := cnt s = capacity s.cfg

/-- FAULT_ANY (R32). -/
def faultAny (s : State) : Bool := s.fault ≠ 0

/-- The STATUS word (10_state R38, 40_cycle_and_bus R125). -/
def statusWord (s : State) : Word :=
  0#21 ++ resCode s.lastRes ++ BitVec.ofBool (faultAny s) ++ BitVec.ofBool (rbFull s) ++ BitVec.ofBool (rbEmpty s) ++
    BitVec.ofBool s.dacValid ++ synCode s.synSt ++ BitVec.ofBool s.acqBusy ++ BitVec.ofBool s.acqRun

/-- The PARAMS word (10_state R34, 40_cycle_and_bus R124). -/
def paramsWord (p : Params) : Word :=
  0#7 ++ BitVec.ofNat 6 p.addrW ++ BitVec.ofNat 5 p.dacW ++ BitVec.ofNat 5 p.sampleW ++ BitVec.ofNat 5 p.tblLog2 ++
    BitVec.ofNat 4 p.capLog2

/-- The RB_PTRS word `{zext_16(rp), zext_16(wp)}` (42_ring_buffer R167). -/
def ptrsWord (s : State) : Word := s.rp ++ s.wp

/-- The ACQ_CUR word `{cp_len, cp_idx}` (43_acquisition_adapter R195). -/
def curWord (s : State) : Word := s.cpLen ++ s.cpIdx

/-- The DAC_OUT word `{0^15, dac_valid, zext_16(dac_data)}` (44_synthesis_sequencer R225). -/
def dacOutWord (s : State) : Word := 0#15 ++ BitVec.ofBool s.dacValid ++ s.dacData

/-- The RB_DATA word of a sample: VALID in bit 31, the sample below (10_state R40). -/
def validWord (d : Sample) : Word := 1#1 ++ 0#15 ++ d

/-- The ID constant (40_cycle_and_bus R123). -/
def idWord : Word := 0x45490006

/-- The table length is one a commit accepts: in `[1, TBL_DEPTH]` (41_waveform_table R145). -/
def tblLenValid (s : State) : Bool := s.tblLen ≠ 0 && decide (s.tblLen.toNat ≤ tblDepth s.cfg)

/-- The acquisition configuration is one a start accepts, but for `acq_cfg_ok` (43_acquisition_adapter R190). -/
def acqCfgValid (s : State) : Bool :=
  s.acqRate ≠ 0 && s.acqBlk ≠ 0 && decide (s.acqBlk.toNat ≤ capacity s.cfg)

/-- The condition of EV_FIRE (30_encoding R82): RUNNING and the period counter expired. -/
def fireCond (s : State) : Bool := s.synSt = .running && s.pcnt = 0

end Sys2Proof.Machine
end

