-- ==== Sys2Proof/Machine/Ops.lean ====
section
/-! DEFINITION. The shared operations over RAMs and registers. The block has no exception entry and no return (spec 60_exceptions R286,
R291, R292): what it has in their place is `State.raise` (a sticky fault flag, R283) and `State.setRes` (a result code, R281). -/

namespace Sys2Proof.Machine

/-! ## RAM words -/

/-- The word written last at an address, `none` where nothing was written since power-up. -/
def Memory.cellAt : Memory → Nat → Option (BitVec 16)
  | [], _ => none
  | (k, v) :: m, a => if k = a then some v else Memory.cellAt m a

/-- Writes one word, keeping addresses strictly rising. -/
def Memory.store : Memory → Nat → BitVec 16 → Memory
  | [], a, v => [(a, v)]
  | (k, w) :: m, a, v =>
    if a < k then (a, v) :: (k, w) :: m
    else if a = k then (a, v) :: m
    else (k, w) :: Memory.store m a v

/-- `MemRead(RBM, i)` (00_scope R10): a slot never written holds its free power-up value (70_reset_and_hazards R313). -/
def rbRead (s : State) (i : Nat) : Sample :=
  (s.rbMem.cellAt i).getD (truncTo s.cfg.sampleW (Config.rbPowerUp i))

/-- `MemRead(TBL, i)`: an entry never written holds its free power-up value, in `[0, VMAX]` (R313). -/
def tblRead (s : State) (i : Nat) : Code :=
  (s.tblMem.cellAt i).getD (truncTo s.cfg.dacW (Config.tblPowerUp i))

/-! ## Results, faults, read data -/

/-- `out.h_rdata <- v` (00_scope R10). -/
def State.setRdata (s : State) (v : Word) : State := { s with out := { s.out with hRdata := v } }

/-- `result(code)` (60_exceptions R281). -/
def State.setRes (s : State) (c : ResultCode) : State := { s with lastRes := c }

/-- `raise Fault(b)` (60_exceptions R283): sets the bits of `b`, and changes nothing else. -/
def State.raise (s : State) (b : FaultBits) : State := { s with fault := s.fault ||| b }

/-- A host read without side effect (40_cycle_and_bus R113): the value is the pre-state's. -/
def readReg (v : Word) (s : State) : Host.Outcome State Fault Refusal := .next (s.setRdata v)

/-- A result-producing write that is refused with STATE_ERR while `locked` holds (60_exceptions R282), and otherwise
performed with OK: `t` is the state with the write done. -/
def writeUnless (locked : Bool) (s t : State) : Host.Outcome State Fault Refusal :=
  .next (if locked then s.setRes .stateErr else t.setRes .ok)

/-! ## The ring buffer (42_ring_buffer R160) -/

/-- One push: the write, and in a full buffer the counted discard of the oldest sample (R161, R162). -/
def rbPush (s : State) (d : Sample) : State :=
  { s with
    rbMem := s.rbMem.store (slotOf s.cfg s.wp) (truncTo s.cfg.sampleW d)
    wp := nextPtr s.cfg s.wp
    rp := if rbFull s then nextPtr s.cfg s.rp else s.rp
    ovfCnt := if rbFull s then s.ovfCnt + 1 else s.ovfCnt }

/-- The oldest unread sample (R163). -/
def rbFront (s : State) : Sample := rbRead s (slotOf s.cfg s.rp)

/-- The pointer advance of one effective pop (R163). -/
def rbPop (s : State) : State := { s with rp := nextPtr s.cfg s.rp }

/-! ## Outputs -/

/-- The registered outputs of a state (10_state R31), `h_rdata` 0 (40_cycle_and_bus R112). -/
def registeredOutputs (s : State) : Outputs where
  hRdata := 0
  srcRd := s.acqBusy
  srcAddr := srcAddrOf s.cfg s.cpBase s.cpIdx
  dmaAck := s.ackQ
  acqArm := s.acqRun
  acqChanO := s.acqChan
  acqRateO := s.acqRate
  acqBlkO := s.acqBlk
  dacValid := s.dacValid
  dacData := s.dacData
  dacChan := s.synChan

end Sys2Proof.Machine
end

