-- ==== Sys2Proof/Machine/Acq.lean ====
section
/-! DEFINITION. The DMA-to-buffer adapter (spec 43_acquisition_adapter): its two events, its configuration writes and commands, its
observation registers. -/

namespace Sys2Proof.Machine

/-- The desync check of an accepted block (R182). -/
def checkDesync (len : Len) (s : State) : State := if len ≠ s.acqBlk then s.raise acqDesync else s

/-- Accepting a block: of length 0 it is counted and acknowledged at once (R186), else its copy begins (R181). -/
def acceptBlock (ptr : SrcAddr) (len : Len) (s : State) : State :=
  if len = 0 then { s with ackQ := true, acqBlks := s.acqBlks + 1 }
  else { s with acqBusy := true, cpBase := truncTo s.cfg.addrW ptr, cpLen := len, cpIdx := 0 }

/-- EV_DMA_DONE: ignored while stopped (R185), a reentry during a copy (R184), accepted otherwise (R181, R182, R186). -/
def execEvDmaDone (ptr : SrcAddr) (len : Len) (s : State) : Host.Outcome State Fault Refusal :=
  if !s.acqRun then .next s
  else if s.acqBusy then .next (s.raise acqReentry)
  else .next (acceptBlock ptr len (checkDesync len s))

/-- The copy counter after a beat: the last beat ends the copy, counts the block and queues the acknowledge (R183). -/
def advanceCopy (s : State) : State :=
  if s.cpIdx.toNat + 1 = s.cpLen.toNat then
    { s with acqBusy := false, cpIdx := 0, ackQ := true, acqBlks := s.acqBlks + 1 }
  else { s with cpIdx := s.cpIdx + 1 }

/-- EV_COPY_BEAT: one push, in a state with `acq_busy = 1` (R183); in any other there is no beat (30_encoding R82). -/
def execEvCopyBeat (data : Sample) (s : State) : Host.Outcome State Fault Refusal :=
  if s.acqBusy then
    let t := rbPush s data
    .next (advanceCopy { t with acqSamples := t.acqSamples + 1 })
  else .next s

/-- WR_ACQ_CHAN (R188). -/
def execWrAcqChan (chan : Chan) (s : State) : Host.Outcome State Fault Refusal :=
  writeUnless s.acqRun s { s with acqChan := chan }

/-- WR_ACQ_RATE (R189). -/
def execWrAcqRate (rate : Word) (s : State) : Host.Outcome State Fault Refusal :=
  writeUnless s.acqRun s { s with acqRate := rate }

/-- WR_ACQ_BLK (R192). -/
def execWrAcqBlk (blk : Len) (s : State) : Host.Outcome State Fault Refusal :=
  writeUnless s.acqRun s { s with acqBlk := blk }

/-- CMD_ACQ_START (R190): the checks in the order written. -/
def execCmdAcqStart (s : State) : Host.Outcome State Fault Refusal :=
  if s.acqRun then .next (s.setRes .stateErr)
  else if !acqCfgValid s then .next (s.setRes .cfgErr)
  else if !s.inp.acqCfgOk then .next (s.setRes .cfgErr)
  else .next { s with acqRun := true, lastRes := .ok }

/-- CMD_ACQ_STOP (R191): a copy in progress goes on. -/
def execCmdAcqStop (s : State) : Host.Outcome State Fault Refusal := .next { s with acqRun := false, lastRes := .ok }

/-- RD_ACQ_BLKS (R193). -/
def execRdAcqBlks (s : State) : Host.Outcome State Fault Refusal := readReg s.acqBlks s

/-- RD_ACQ_SAMPLES (R194). -/
def execRdAcqSamples (s : State) : Host.Outcome State Fault Refusal := readReg s.acqSamples s

/-- RD_ACQ_CUR (R195). -/
def execRdAcqCur (s : State) : Host.Outcome State Fault Refusal := readReg (curWord s) s

/-- RD_ACQ_CHAN (R196). -/
def execRdAcqChan (s : State) : Host.Outcome State Fault Refusal := readReg (s.acqChan.zeroExtend 32) s

/-- RD_ACQ_RATE (R197). -/
def execRdAcqRate (s : State) : Host.Outcome State Fault Refusal := readReg s.acqRate s

/-- RD_ACQ_BLK (R198). -/
def execRdAcqBlk (s : State) : Host.Outcome State Fault Refusal := readReg (s.acqBlk.zeroExtend 32) s

end Sys2Proof.Machine
end

