-- ==== Sys2Proof/Machine/Bus.lean ====
section
/-! DEFINITION. The host operations that belong to no sub-block (spec 40_cycle_and_bus): reads of ID, PARAMS, STATUS and reserved
addresses, ignored writes, the commands NOP and reserved; and the FAULT register (60_exceptions R284, R285). -/

namespace Sys2Proof.Machine

/-- RD_ID (40_cycle_and_bus R123). -/
def execRdId (s : State) : Host.Outcome State Fault Refusal := readReg idWord s

/-- RD_PARAMS (40_cycle_and_bus R124). -/
def execRdParams (s : State) : Host.Outcome State Fault Refusal := readReg (paramsWord s.cfg) s

/-- RD_STATUS (40_cycle_and_bus R125). -/
def execRdStatus (s : State) : Host.Outcome State Fault Refusal := readReg (statusWord s) s

/-- RD_RSVD (40_cycle_and_bus R114): the address does not matter. -/
def execRdRsvd (_addr : RegAddr) (s : State) : Host.Outcome State Fault Refusal := readReg 0 s

/-- RD_FAULT (60_exceptions R285): reading clears nothing. -/
def execRdFault (s : State) : Host.Outcome State Fault Refusal := readReg (s.fault.zeroExtend 32) s

/-- WR_FAULT (60_exceptions R284): the clear of the merge; bits set by an event of the same cycle are merged after it
(Machine/Cycle.lean), so a set wins. -/
def execWrFault (mask : FaultBits) (s : State) : Host.Outcome State Fault Refusal :=
  .next { s with fault := s.fault &&& ~~~mask }

/-- WR_IGNORED (40_cycle_and_bus R116): no state change, not even of `last_res`. -/
def execWrIgnored (_addr : RegAddr) (_wdata : Word) (s : State) : Host.Outcome State Fault Refusal := .next s

/-- CMD_NOP (40_cycle_and_bus R119). -/
def execCmdNop (s : State) : Host.Outcome State Fault Refusal := .next (s.setRes .ok)

/-- CMD_RSVD (40_cycle_and_bus R120). -/
def execCmdRsvd (_wdata : Word) (s : State) : Host.Outcome State Fault Refusal := .next (s.setRes .badCmd)

end Sys2Proof.Machine
end

