-- ==== Sys2Proof/Machine/Reset.lean ====
section
/-! DEFINITION. EV_RESET (spec 70_reset_and_hazards R310): the next state of a reset cycle. -/

namespace Sys2Proof.Machine

/-- EV_RESET (R310): every register takes its reset value; the RAMs are unchanged. The ports and the parameters are not
registers of the block and stay. -/
def execEvReset (s : State) : Host.Outcome State Fault Refusal :=
  .next { s with
    wp := 0, rp := 0, ovfCnt := 0
    acqRun := false, acqBusy := false, ackQ := false
    cpBase := 0, cpLen := 0, cpIdx := 0
    acqChan := 0, acqRate := 0, acqBlk := 0
    acqBlks := 0, acqSamples := 0
    synSt := .uninit
    tblLen := 0, tblAddr := 0
    synChan := 0, synPeriod := 0, pcnt := 0, idx := 0, synFires := 0
    dacValid := false, dacData := 0
    lastRes := .ok
    fault := 0 }

end Sys2Proof.Machine
end

