-- ==== Sys2Proof/Machine/Ring.lean ====
section
/-! DEFINITION. The host's reads of the sample ring buffer (spec 42_ring_buffer). The push is EV_COPY_BEAT (Machine/Acq.lean). -/

namespace Sys2Proof.Machine

/-- The unread samples, oldest first: the occupied slots from `rp` on (20_memory R70). No operation computes this list; it
is what the buffer stands for. -/
def unread (s : State) : List Sample :=
  (List.range (cnt s)).map fun k => rbRead s ((s.rp.toNat + k) % capacity s.cfg)

/-- RD_RB_DATA (R163, R165): returns the oldest sample and pops it, or returns 0 and changes nothing. -/
def execRdRbData (s : State) : Host.Outcome State Fault Refusal :=
  if rbEmpty s then readReg 0 s else readReg (validWord (rbFront s)) (rbPop s)

/-- RD_RB_COUNT (R166). -/
def execRdRbCount (s : State) : Host.Outcome State Fault Refusal := readReg (BitVec.ofNat 32 (cnt s)) s

/-- RD_RB_PTRS (R167): the raw pointers, wrap bit and all. -/
def execRdRbPtrs (s : State) : Host.Outcome State Fault Refusal := readReg (ptrsWord s) s

/-- RD_OVF_CNT (R168). -/
def execRdOvfCnt (s : State) : Host.Outcome State Fault Refusal := readReg s.ovfCnt s

end Sys2Proof.Machine
end

