-- ==== Sys2Proof/Machine/Syn.lean ====
section
/-! DEFINITION. The waveform output sequencer (spec 44_synthesis_sequencer): firing, DAC accept, configuration writes and commands,
observation registers. The per-cycle decrement of the period counter is in Machine/Cycle.lean. -/

namespace Sys2Proof.Machine

/-- The table index after an accepted firing: `(idx + 1) mod N`, reached by a comparison (R210, R215). -/
def nextIdx (s : State) : Len :=
  if s.idx.toNat + 1 = s.tblLen.toNat then 0 else s.idx + 1

/-- An accepted firing: one DAC write and one index increment (R215). -/
def acceptFiring (s : State) : State :=
  { s with
    dacData := tblRead s s.idx.toNat
    dacValid := true
    idx := nextIdx s
    synFires := s.synFires + 1 }

/-- EV_FIRE (R213): the period counter reloads (R212); a pending write that the DAC does not accept in this cycle makes the
firing a reentry (R214), else it is accepted (R215). In a state where the firing condition fails there is none. -/
def execEvFire (s : State) : Host.Outcome State Fault Refusal :=
  if fireCond s then
    let t := { s with pcnt := s.synPeriod - 1 }
    .next (if s.dacValid && !s.inp.dacReady then t.raise synReentry else acceptFiring t)
  else .next s

/-- EV_DAC_ACCEPT (R216): the DAC takes the pending write. -/
def execEvDacAccept (s : State) : Host.Outcome State Fault Refusal :=
  .next (if s.dacValid && s.inp.dacReady then { s with dacValid := false } else s)

/-- A synthesis session runs, so the configuration is locked (R218, R219). -/
def synLocked (s : State) : Bool := s.synSt = .running

/-- WR_SYN_CHAN (R218). -/
def execWrSynChan (chan : Chan) (s : State) : Host.Outcome State Fault Refusal :=
  writeUnless (synLocked s) s { s with synChan := chan }

/-- WR_SYN_PERIOD (R219). -/
def execWrSynPeriod (period : Word) (s : State) : Host.Outcome State Fault Refusal :=
  writeUnless (synLocked s) s { s with synPeriod := period }

/-- CMD_SYN_START (R220): the checks in the order written; the session starts at index 0. -/
def execCmdSynStart (s : State) : Host.Outcome State Fault Refusal :=
  if s.synSt = .running then .next (s.setRes .stateErr)
  else if s.synSt = .uninit then .next (s.setRes .notReady)
  else if s.synPeriod = 0 then .next (s.setRes .cfgErr)
  else .next { s with synSt := .running, idx := 0, pcnt := s.synPeriod - 1, lastRes := .ok }

/-- CMD_SYN_STOP (R221): index, period counter and a pending write are kept. -/
def execCmdSynStop (s : State) : Host.Outcome State Fault Refusal :=
  .next { s with synSt := if s.synSt = .running then .stopped else s.synSt, lastRes := .ok }

/-- RD_SYN_IDX (R222). -/
def execRdSynIdx (s : State) : Host.Outcome State Fault Refusal := readReg (s.idx.zeroExtend 32) s

/-- RD_SYN_PCNT (R223). -/
def execRdSynPcnt (s : State) : Host.Outcome State Fault Refusal := readReg s.pcnt s

/-- RD_SYN_FIRES (R224). -/
def execRdSynFires (s : State) : Host.Outcome State Fault Refusal := readReg s.synFires s

/-- RD_DAC_OUT (R225). -/
def execRdDacOut (s : State) : Host.Outcome State Fault Refusal := readReg (dacOutWord s) s

/-- RD_SYN_CHAN (R226). -/
def execRdSynChan (s : State) : Host.Outcome State Fault Refusal := readReg (s.synChan.zeroExtend 32) s

/-- RD_SYN_PERIOD (R227). -/
def execRdSynPeriod (s : State) : Host.Outcome State Fault Refusal := readReg s.synPeriod s

end Sys2Proof.Machine
end

