-- ==== Sys2Proof/Machine/Table.lean ====
section
/-! DEFINITION. The waveform table's load port and its commit (spec 41_waveform_table R140 to R146). Every load-port write is refused with
STATE_ERR once the table is committed (90_conflicts C4). -/

namespace Sys2Proof.Machine

/-- The load port is locked: a table is committed (R140 to R142). -/
def tblLocked (s : State) : Bool := s.synSt ≠ .uninit

/-- WR_TBL_LEN (R140): any value is stored, the commit checks it. -/
def execWrTblLen (n : BitVec 17) (s : State) : Host.Outcome State Fault Refusal :=
  writeUnless (tblLocked s) s { s with tblLen := n }

/-- WR_TBL_ADDR (R141): an address above the table is reduced modulo its depth. -/
def execWrTblAddr (a : Word) (s : State) : Host.Outcome State Fault Refusal :=
  writeUnless (tblLocked s) s { s with tblAddr := tblAddrOf s.cfg a }

/-- WR_TBL_DATA (R142): the value saturates to `VMAX`, the load address advances. -/
def execWrTblData (v : Word) (s : State) : Host.Outcome State Fault Refusal :=
  writeUnless (tblLocked s) s
    { s with tblMem := s.tblMem.store s.tblAddr.toNat (satVmax s.cfg v), tblAddr := nextTblAddr s.cfg s.tblAddr }

/-- RD_TBL_DATA (R143): legal in every state, does not advance the load address. -/
def execRdTblData (s : State) : Host.Outcome State Fault Refusal :=
  readReg ((tblRead s s.tblAddr.toNat).zeroExtend 32) s

/-- RD_TBL_LEN (R144). -/
def execRdTblLen (s : State) : Host.Outcome State Fault Refusal := readReg (s.tblLen.zeroExtend 32) s

/-- RD_TBL_ADDR (R146). -/
def execRdTblAddr (s : State) : Host.Outcome State Fault Refusal := readReg (s.tblAddr.zeroExtend 32) s

/-- CMD_TBL_COMMIT (R145): the checks in the order written. -/
def execCmdTblCommit (s : State) : Host.Outcome State Fault Refusal :=
  if tblLocked s then .next (s.setRes .stateErr)
  else if !tblLenValid s then .next (s.setRes .cfgErr)
  else .next { s with synSt := .ready, lastRes := .ok }

end Sys2Proof.Machine
end

