-- ==== Sys2Proof/Machine/Dispatch.lean ====
section
/-! DEFINITION. The meaning of each operation, one arm per constructor of Instr, in the order of spec/opcode_table.json. -/

namespace Sys2Proof.Machine

/-- The effect of one operation on a state (spec 30_encoding R85 names the rule of each). -/
def exec (i : Instr) (s : State) : Host.Outcome State Fault Refusal :=
  match i with
  | .rdId => Sys2Proof.Machine.execRdId s
  | .rdParams => Sys2Proof.Machine.execRdParams s
  | .rdStatus => Sys2Proof.Machine.execRdStatus s
  | .rdFault => Sys2Proof.Machine.execRdFault s
  | .rdRbCount => Sys2Proof.Machine.execRdRbCount s
  | .rdRbData => Sys2Proof.Machine.execRdRbData s
  | .rdRbPtrs => Sys2Proof.Machine.execRdRbPtrs s
  | .rdOvfCnt => Sys2Proof.Machine.execRdOvfCnt s
  | .rdAcqChan => Sys2Proof.Machine.execRdAcqChan s
  | .rdAcqRate => Sys2Proof.Machine.execRdAcqRate s
  | .rdAcqBlk => Sys2Proof.Machine.execRdAcqBlk s
  | .rdAcqBlks => Sys2Proof.Machine.execRdAcqBlks s
  | .rdAcqSamples => Sys2Proof.Machine.execRdAcqSamples s
  | .rdAcqCur => Sys2Proof.Machine.execRdAcqCur s
  | .rdSynChan => Sys2Proof.Machine.execRdSynChan s
  | .rdSynPeriod => Sys2Proof.Machine.execRdSynPeriod s
  | .rdSynIdx => Sys2Proof.Machine.execRdSynIdx s
  | .rdSynPcnt => Sys2Proof.Machine.execRdSynPcnt s
  | .rdSynFires => Sys2Proof.Machine.execRdSynFires s
  | .rdTblLen => Sys2Proof.Machine.execRdTblLen s
  | .rdTblAddr => Sys2Proof.Machine.execRdTblAddr s
  | .rdTblData => Sys2Proof.Machine.execRdTblData s
  | .rdDacOut => Sys2Proof.Machine.execRdDacOut s
  | .rdRsvd addr => Sys2Proof.Machine.execRdRsvd addr s
  | .wrFault mask => Sys2Proof.Machine.execWrFault mask s
  | .wrAcqChan chan => Sys2Proof.Machine.execWrAcqChan chan s
  | .wrAcqRate rate => Sys2Proof.Machine.execWrAcqRate rate s
  | .wrAcqBlk blk => Sys2Proof.Machine.execWrAcqBlk blk s
  | .wrSynChan chan => Sys2Proof.Machine.execWrSynChan chan s
  | .wrSynPeriod period => Sys2Proof.Machine.execWrSynPeriod period s
  | .wrTblLen n => Sys2Proof.Machine.execWrTblLen n s
  | .wrTblAddr a => Sys2Proof.Machine.execWrTblAddr a s
  | .wrTblData v => Sys2Proof.Machine.execWrTblData v s
  | .cmdNop => Sys2Proof.Machine.execCmdNop s
  | .cmdAcqStart => Sys2Proof.Machine.execCmdAcqStart s
  | .cmdAcqStop => Sys2Proof.Machine.execCmdAcqStop s
  | .cmdSynStart => Sys2Proof.Machine.execCmdSynStart s
  | .cmdSynStop => Sys2Proof.Machine.execCmdSynStop s
  | .cmdTblCommit => Sys2Proof.Machine.execCmdTblCommit s
  | .cmdRsvd wdata => Sys2Proof.Machine.execCmdRsvd wdata s
  | .wrIgnored addr wdata => Sys2Proof.Machine.execWrIgnored addr wdata s
  | .evReset => Sys2Proof.Machine.execEvReset s
  | .evDmaDone ptr len => Sys2Proof.Machine.execEvDmaDone ptr len s
  | .evCopyBeat data => Sys2Proof.Machine.execEvCopyBeat data s
  | .evFire => Sys2Proof.Machine.execEvFire s
  | .evDacAccept => Sys2Proof.Machine.execEvDacAccept s

end Sys2Proof.Machine
end

