-- ==== Sys2Proof/Machine/Cycle.lean ====
section
/-! DEFINITION. One clock cycle (spec 40_cycle_and_bus R110) as a sequence of operations. In the spec all operations of a cycle act on
one pre-state and their writes merge. Here which operations run is read from the pre-state and the inputs alone, and they
run one after another, in an order in which none reads what an earlier one wrote, but where that gives the merge the spec
asks for: a pop before a push (R164), the DAC accept before the firing (R215), the clear of FAULT bits before they are set,
and the sets one over another (R284, R289). Log entry 4. Machine/Reference.lean holds R110 as the spec writes it. -/

namespace Sys2Proof.Machine

/-- The port values of the coming cycle: the first of the list, or free ones where the list is empty (log entry 1). -/
def nextInputs (s : State) : Inputs :=
  match s.env with
  | [] => Config.freeInputs s.cycle
  | x :: _ => x

/-- The cycle begins: the inputs are sampled (R30) and the registered outputs driven (R31). -/
def beginCycle (s : State) : State :=
  { s with env := s.env.tail, inp := nextInputs s, out := registeredOutputs s, cycle := s.cycle + 1 }

/-- The host transaction word on the ports (30_encoding R80). -/
def hostWord (x : Inputs) : BitVec 39 := BitVec.ofBool x.hWe ++ x.hAddr ++ x.hWdata

/-- The port event vector (30_encoding R81). -/
def portWord (x : Inputs) : BitVec 5 :=
  BitVec.ofBool x.acqCfgOk ++ BitVec.ofBool x.dacReady ++ BitVec.ofBool x.dmaDone ++ BitVec.ofBool x.hSel ++ BitVec.ofBool x.rst

/-- The internal event conditions (30_encoding R82), on a state with its inputs sampled. -/
def internalWord (s : State) : BitVec 4 :=
  BitVec.ofBool s.inp.dacReady ++ BitVec.ofBool s.dacValid ++ BitVec.ofBool (fireCond s) ++ BitVec.ofBool s.acqBusy

/-- The host transaction of the cycle: at most one (40_cycle_and_bus R112). -/
def hostOps (x : Inputs) : List Instr := if x.hSel then [decodeHtw (hostWord x)] else []

/-- The event operations of the cycle (30_encoding R85), on a state with its inputs sampled. -/
def eventOps (s : State) : List Instr :=
  (decodePev (portWord s.inp) s.inp.dmaPtr s.inp.dmaLen).toList ++ decodeInt (internalWord s) s.inp.srcData

/-- The host operations that run before the cycle's events: the reads, which see the pre-state (R121), and the clear of
FAULT bits, which a set of the same cycle wins over (R284). The others, which no event of the cycle may see (60_exceptions
R290), run after. -/
def runsBeforeEvents : Instr → Bool
  | .rdId | .rdParams | .rdStatus | .rdFault | .rdRbCount | .rdRbData | .rdRbPtrs | .rdOvfCnt | .rdAcqChan
  | .rdAcqRate | .rdAcqBlk | .rdAcqBlks | .rdAcqSamples | .rdAcqCur | .rdSynChan | .rdSynPeriod | .rdSynIdx
  | .rdSynPcnt | .rdSynFires | .rdTblLen | .rdTblAddr | .rdTblData | .rdDacOut | .rdRsvd _ | .wrFault _ => true
  | .wrAcqChan _ | .wrAcqRate _ | .wrAcqBlk _ | .wrSynChan _ | .wrSynPeriod _ | .wrTblLen _ | .wrTblAddr _
  | .wrTblData _ | .cmdNop | .cmdAcqStart | .cmdAcqStop | .cmdSynStart | .cmdSynStop | .cmdTblCommit | .cmdRsvd _
  | .wrIgnored _ _ => false
  | .evReset | .evDmaDone _ _ | .evCopyBeat _ | .evFire | .evDacAccept => false

/-- What a cycle without reset changes whatever operations it has: the acknowledge of the last cycle ends
(43_acquisition_adapter R180) and a running period counter that has not expired counts down (44_synthesis_sequencer R212). -/
def tick (s : State) : State :=
  { s with
    ackQ := false
    pcnt := if s.synSt = .running ∧ s.pcnt ≠ 0 then s.pcnt - 1 else s.pcnt }

/-- Goes on from a next state, stops at a fault or a refusal. -/
def andThen (o : Host.Outcome State Fault Refusal) (f : State → Host.Outcome State Fault Refusal) :
    Host.Outcome State Fault Refusal :=
  match o with
  | .next s => f s
  | .fault r => .fault r
  | .refused r => .refused r

/-- Runs operations one after another. -/
def runOps : List Instr → State → Host.Outcome State Fault Refusal
  | [], s => .next s
  | i :: is, s => andThen (exec i s) (runOps is)

/-- The cycle of a state whose inputs are sampled: a reset cycle performs nothing else (R310); any other performs its host
transaction and its events. -/
def runCycle (s : State) : Host.Outcome State Fault Refusal :=
  if s.inp.rst then runOps [.evReset] s
  else
    andThen (runOps ((hostOps s.inp).filter runsBeforeEvents) s) fun t =>
      andThen (runOps (eventOps s) (tick t)) fun u =>
        runOps ((hostOps s.inp).filter (fun i => !runsBeforeEvents i)) u

/-! ## Placing a word for the next cycle -/

/-- Port values that present an HTW, the other ports at the levels of an assembler line (30_encoding R88). -/
def inputsOfHtw (w : BitVec 39) : Inputs :=
  { Inputs.idle with
    hSel := true
    hWe := w.getLsbD 38
    hAddr := w.extractLsb' 32 6
    hWdata := w.extractLsb' 0 32 }

/-- Port values that carry a port event vector with its operands (30_encoding R81). -/
def inputsOfPev (w : BitVec 5) (ptr : SrcAddr) (len : Len) : Inputs :=
  { Inputs.quiet with
    rst := w.getLsbD 0
    hSel := w.getLsbD 1
    dmaDone := w.getLsbD 2
    dacReady := w.getLsbD 3
    acqCfgOk := w.getLsbD 4
    dmaPtr := ptr
    dmaLen := len }

/-- Port values, and the state conditions, of an INT word (30_encoding R82): a set bit makes its condition hold. -/
def placeInt (w : BitVec 4) (data : Sample) (s : State) : State :=
  { s with
    acqBusy := w.getLsbD 0 || s.acqBusy
    synSt := if w.getLsbD 1 then .running else s.synSt
    pcnt := if w.getLsbD 1 then 0 else s.pcnt
    dacValid := w.getLsbD 2 || s.dacValid
    env := { Inputs.quiet with dacReady := w.getLsbD 3, srcData := data } :: s.env }

/-- The state whose next cycle presents the operation of a word. Ten digits with bit 39 set are no HTW (30_encoding R80), and the
spec gives them no meaning: such a word places nothing, as the decoder reads nothing from it (DESIGN CHOICE, log entry 8). -/
def placeOpWord (ow : OpWord) (s : State) : State :=
  match ow with
  | .htw w => if w.getLsbD 39 then s else { s with env := inputsOfHtw (w.extractLsb' 0 39) :: s.env }
  | .pev w ptr len => { s with env := inputsOfPev w ptr len :: s.env }
  | .int w data => placeInt w data s

end Sys2Proof.Machine
end

