-- ==== Sys2Proof/Machine/Step.lean ====
section
/-! DEFINITION. One step of the machine: one clock cycle (spec 40_cycle_and_bus R110). -/

namespace Sys2Proof.Machine

/-- One clock cycle: sample the inputs, drive the outputs, perform the cycle's operations. -/
def step (s : State) : Host.Outcome State Fault Refusal := runCycle (beginCycle s)

/-- The state whose next step presents the operation of a word numbered as spec/opcode_table.json numbers it; the state
itself where the word is of no format, a host word with bit 39 set among them (log entry 8). -/
def State.withFetchWord (s : State) (nbits w : Nat) : State :=
  match tableOpWord nbits w with
  | some ow => placeOpWord ow s
  | none => s

end Sys2Proof.Machine
end

