-- ==== Sys2Proof/Machine/Assembler.lean ====
section
/-! DEFINITION. Host software, not hardware (spec 00_scope R4): the assembler lines of 30_encoding R88 and the pseudo-instructions of R89.
The step never calls this file. -/

namespace Sys2Proof.Machine

/-- One line of host text, one cycle each (R88). -/
inductive HostLine where
  /-- `RD <reg>` -/
  | rd (a : RegAddr)
  /-- `WR <reg>, <value>` -/
  | wr (a : RegAddr) (w : Word)
  /-- `IDLE` -/
  | idle
deriving DecidableEq, Repr

/-- The host's ports in the cycle of a line; the other ports stay as the environment drives them (R88). -/
def HostLine.drive (l : HostLine) (x : Inputs) : Inputs :=
  match l with
  | .rd a => { x with hSel := true, hWe := false, hAddr := a, hWdata := 0 }
  | .wr a w => { x with hSel := true, hWe := true, hAddr := a, hWdata := w }
  | .idle => { x with hSel := false }

/-- One cycle in which the host presents a line and the environment the ports it was going to. -/
def issue (l : HostLine) (s : State) : Host.Outcome State Fault Refusal :=
  step { s with env := l.drive (nextInputs s) :: s.env.tail }

/-- A program: its lines in successive cycles. -/
def issueAll : List HostLine → State → Host.Outcome State Fault Refusal
  | [], s => .next s
  | l :: ls, s => andThen (issue l s) (issueAll ls)

/-- `IDLE <n>` (R88): n cycles without a transaction. -/
def asmIdle (n : Nat) : List HostLine := List.replicate n .idle

/-- `CMD ...` (R89). -/
def asmCmd (opc : Word) : List HostLine := [.wr 0x02 opc]

/-- `POP` (R89). -/
def asmPop : List HostLine := [.rd 0x06]

/-- `CLRFAULT <mask>` (R89). -/
def asmClrFault (mask : Word) : List HostLine := [.wr 0x04 mask]

/-- `TBLLOAD v0, ..., v(n−1)` (R89): n + 3 cycles. -/
def asmTblLoad (vs : List Word) : List HostLine :=
  [.wr 0x16 0] ++ vs.map (.wr 0x17) ++ [.wr 0x15 (BitVec.ofNat 32 vs.length), .wr 0x02 5]

/-- `ACQCFG <chan>, <rate>, <blk>` (R89). -/
def asmAcqCfg (chan rate blk : Word) : List HostLine := [.wr 0x09 chan, .wr 0x0A rate, .wr 0x0B blk]

/-- `SYNCFG <chan>, <period>` (R89). -/
def asmSynCfg (chan period : Word) : List HostLine := [.wr 0x10 chan, .wr 0x11 period]

end Sys2Proof.Machine
end

