-- ==== Sys2Proof/Machine/Generate.lean ====
section
/-! DEFINITION. Host arithmetic, not hardware (spec 00_scope R4): the rounding of 41_waveform_table R147, the table formula over the exact
real sine, and the program GENERATE (R149). The step never calls this file. The formula is `noncomputable` because R147 says
"where `sin` is the exact real sine" (log entry 13). -/

namespace Sys2Proof.Machine

/-- `round_half_away(x) = sign(x) · floor(|x| + 1/2)` (R147), over any ordered field with a floor: rationals or reals. -/
def roundHalfAway {α : Type} [Field α] [LinearOrder α] [FloorRing α] (x : α) : Int :=
  (SignType.sign x : Int) * ⌊|x| + 1 / 2⌋

/-- `clamp_0_VMAX` (R147). -/
def clampVmax (p : Params) (x : Int) : Nat := min x.toNat (vmax p)

/-- `gen(N, A, O, i)` (R147). -/
noncomputable def gen (p : Params) (n : Nat) (a o : Real) (i : Nat) : Nat :=
  clampVmax p (roundHalfAway (o + a * Real.sin (2 * Real.pi * i / n)))

/-- The N entries that GENERATE(N, A, O) loads (R149). -/
noncomputable def generatedTable (p : Params) (n : Nat) (a o : Real) : List Word :=
  (List.range n).map fun i => BitVec.ofNat 32 (gen p n a o i)

/-- GENERATE(N, A, O) (R149). -/
noncomputable def asmGenerate (p : Params) (n : Nat) (a o : Real) : List HostLine := asmTblLoad (generatedTable p n a o)

end Sys2Proof.Machine
end

