-- ==== Sys2Proof/Machine/Reference.lean ====
section
/-! DEFINITION. The cycle step as the pseudocode of the spec writes it: `step(s, in)` of 40_cycle_and_bus R110 with `acq_step` (R180),
`rb_step` (R160), `syn_step` (R210) and the write rules of R115. Every function reads the pre-state `s` and the inputs `x`,
and writes into the post-state `t`. The machine's own step (Machine/Step.lean) runs the operations of a cycle one by one; that
the two are the same function is a statement of Certificates/Slice0/Obligations.lean. -/

namespace Sys2Proof.Machine.Reference

/-- `readval(s, addr)` (R113): the value the read rule of each address gives (10_state R33). -/
def readval (s : State) (a : RegAddr) : Word :=
  match a.toNat with
  | 0x00 => 0x45490006
  | 0x01 => paramsWord s.cfg
  | 0x03 => statusWord s
  | 0x04 => s.fault.zeroExtend 32
  | 0x05 => BitVec.ofNat 32 (cnt s)
  | 0x06 => if cnt s > 0 then validWord (rbRead s (slotOf s.cfg s.rp)) else 0
  | 0x07 => ptrsWord s
  | 0x08 => s.ovfCnt
  | 0x09 => s.acqChan.zeroExtend 32
  | 0x0A => s.acqRate
  | 0x0B => s.acqBlk.zeroExtend 32
  | 0x0C => s.acqBlks
  | 0x0D => s.acqSamples
  | 0x0E => curWord s
  | 0x10 => s.synChan.zeroExtend 32
  | 0x11 => s.synPeriod
  | 0x12 => s.idx.zeroExtend 32
  | 0x13 => s.pcnt
  | 0x14 => s.synFires
  | 0x15 => s.tblLen.zeroExtend 32
  | 0x16 => s.tblAddr.zeroExtend 32
  | 0x17 => (tblRead s s.tblAddr.toNat).zeroExtend 32
  | 0x18 => dacOutWord s
  | _ => 0

/-- CMD (R118 and the rules it names). -/
def hostCommand (s : State) (x : Inputs) (t : State) : State :=
  match x.hWdata.toNat with
  | 0 => { t with lastRes := .ok }
  | 1 =>
    if s.acqRun then { t with lastRes := .stateErr }
    else if s.acqRate = 0 ∨ s.acqBlk = 0 ∨ s.acqBlk.toNat > capacity s.cfg then { t with lastRes := .cfgErr }
    else if x.acqCfgOk = false then { t with lastRes := .cfgErr }
    else { t with acqRun := true, lastRes := .ok }
  | 2 => { t with acqRun := false, lastRes := .ok }
  | 3 =>
    if s.synSt = .running then { t with lastRes := .stateErr }
    else if s.synSt = .uninit then { t with lastRes := .notReady }
    else if s.synPeriod = 0 then { t with lastRes := .cfgErr }
    else { t with synSt := .running, idx := 0, pcnt := s.synPeriod - 1, lastRes := .ok }
  | 4 => if s.synSt = .running then { t with synSt := .stopped, lastRes := .ok } else { t with lastRes := .ok }
  | 5 =>
    if s.synSt ≠ .uninit then { t with lastRes := .stateErr }
    else if s.tblLen = 0 ∨ s.tblLen.toNat > tblDepth s.cfg then { t with lastRes := .cfgErr }
    else { t with synSt := .ready, lastRes := .ok }
  | _ => { t with lastRes := .badCmd }

/-- `host_write(s, in)` (R115), but for FAULT, whose clear is part of the merge. -/
def hostWrite (s : State) (x : Inputs) (t : State) : State :=
  let stateErr := { t with lastRes := .stateErr }
  match x.hAddr.toNat with
  | 0x02 => hostCommand s x t
  | 0x09 => if s.acqRun then stateErr else { t with acqChan := x.hWdata.extractLsb' 0 8, lastRes := .ok }
  | 0x0A => if s.acqRun then stateErr else { t with acqRate := x.hWdata, lastRes := .ok }
  | 0x0B => if s.acqRun then stateErr else { t with acqBlk := x.hWdata.extractLsb' 0 16, lastRes := .ok }
  | 0x10 => if s.synSt = .running then stateErr else { t with synChan := x.hWdata.extractLsb' 0 8, lastRes := .ok }
  | 0x11 => if s.synSt = .running then stateErr else { t with synPeriod := x.hWdata, lastRes := .ok }
  | 0x15 => if s.synSt ≠ .uninit then stateErr else { t with tblLen := x.hWdata.extractLsb' 0 17, lastRes := .ok }
  | 0x16 =>
    if s.synSt ≠ .uninit then stateErr
    else { t with tblAddr := BitVec.ofNat 16 (x.hWdata.toNat % tblDepth s.cfg), lastRes := .ok }
  | 0x17 =>
    if s.synSt ≠ .uninit then stateErr
    else { t with
      tblMem := s.tblMem.store s.tblAddr.toNat (satVmax s.cfg x.hWdata)
      tblAddr := BitVec.ofNat 16 ((s.tblAddr.toNat + 1) % tblDepth s.cfg)
      lastRes := .ok }
  | _ => t

/-- `acq_step(s, in)` (R180), less the push request and the fault bits, which it also returns. -/
def acqStep (s : State) (x : Inputs) (t : State) : State :=
  let t := { t with ackQ := false }
  let t :=
    if s.acqBusy then
      let t := { t with acqSamples := s.acqSamples + 1 }
      if s.cpIdx.toNat + 1 = s.cpLen.toNat then
        { t with acqBusy := false, cpIdx := 0, ackQ := true, acqBlks := s.acqBlks + 1 }
      else { t with cpIdx := s.cpIdx + 1 }
    else t
  if x.dmaDone ∧ s.acqRun ∧ ¬s.acqBusy then
    if x.dmaLen = 0 then { t with ackQ := true, acqBlks := s.acqBlks + 1 }
    else { t with acqBusy := true, cpBase := truncTo s.cfg.addrW x.dmaPtr, cpLen := x.dmaLen, cpIdx := 0 }
  else t

/-- `set_acq` (R180). -/
def setAcq (s : State) (x : Inputs) : FaultBits :=
  if x.dmaDone ∧ s.acqRun then
    if s.acqBusy then acqReentry else if x.dmaLen ≠ s.acqBlk then acqDesync else 0
  else 0

/-- `rb_step(s, push_req, d, pop_req)` (R160). -/
def rbStep (s : State) (pushReq : Bool) (d : Sample) (popReq : Bool) (t : State) : State :=
  let popEff := popReq && decide (cnt s > 0)
  if pushReq then
    let t := { t with
      rbMem := s.rbMem.store (slotOf s.cfg s.wp) (truncTo s.cfg.sampleW d)
      wp := nextPtr s.cfg s.wp }
    if rbFull s && !popEff then { t with rp := nextPtr s.cfg s.rp, ovfCnt := s.ovfCnt + 1 }
    else if popEff then { t with rp := nextPtr s.cfg s.rp }
    else t
  else if popEff then { t with rp := nextPtr s.cfg s.rp }
  else t

/-- `fire` of `syn_step` (R210). -/
def fire (s : State) : Bool := s.synSt = .running && s.pcnt = 0

/-- `syn_step(s, in)` (R210), less the fault bit it returns. -/
def synStep (s : State) (x : Inputs) (t : State) : State :=
  let t :=
    if s.synSt = .running then { t with pcnt := if fire s then s.synPeriod - 1 else s.pcnt - 1 } else t
  if fire s && s.dacValid && !x.dacReady then t
  else if fire s then
    { t with
      dacData := tblRead s s.idx.toNat
      dacValid := true
      idx := if s.idx.toNat + 1 = s.tblLen.toNat then 0 else s.idx + 1
      synFires := s.synFires + 1 }
  else if s.dacValid && x.dacReady then { t with dacValid := false }
  else t

/-- `set_syn` (R210). -/
def setSyn (s : State) (x : Inputs) : FaultBits := if fire s && s.dacValid && !x.dacReady then synReentry else 0

/-- The reset state of R310, RAMs unchanged. -/
def resetState (s t : State) : State :=
  { State.reset with
    cfg := s.cfg, rbMem := s.rbMem, tblMem := s.tblMem, env := t.env, inp := t.inp, out := t.out, cycle := t.cycle }

/-- `step(s, in) = (s', out)` (R110), the outputs written into the post-state's record of them. -/
def cycle (s : State) (x : Inputs) : State :=
  let t := { s with env := s.env.tail, inp := x, cycle := s.cycle + 1, out := registeredOutputs s }
  if x.rst then resetState s t
  else
    let rdata := if x.hSel ∧ ¬x.hWe then readval s x.hAddr else 0
    let popReq := x.hSel && !x.hWe && x.hAddr == 0x06
    let clrMask : FaultBits := if x.hSel ∧ x.hWe ∧ x.hAddr = 0x04 then x.hWdata.extractLsb' 0 3 else 0
    let t := { t with out := { t.out with hRdata := rdata } }
    let t := if x.hSel ∧ x.hWe then hostWrite s x t else t
    let t := acqStep s x t
    let t := rbStep s s.acqBusy x.srcData popReq t
    let t := synStep s x t
    { t with fault := (s.fault &&& ~~~clrMask) ||| setAcq s x ||| setSyn s x }

end Sys2Proof.Machine.Reference
end

