-- ==== Sys2Proof/Safety.lean ====
section
/-! DEFINITION. The invariants of the block (spec 10_state R27 to R29, 43_acquisition_adapter R194, 70_reset_and_hazards R313): what a state that a run can
reach looks like. A claim that fails only in states no run reaches takes one of them as a premise. -/

namespace Sys2Proof.Machine

/-- The ring buffer's invariant: pointers count modulo `2C`, the occupied count is in `[0, C]` (10_state R27), and every
occupied slot was written since power-up (70_reset_and_hazards R313). -/
abbrev RingInv (s : State) : Prop :=
  s.cfg.legal ∧ s.wp.toNat < 2 * capacity s.cfg ∧ s.rp.toNat < 2 * capacity s.cfg ∧ cnt s ≤ capacity s.cfg ∧
    ∀ k < cnt s, (s.rbMem.cellAt ((s.rp.toNat + k) % capacity s.cfg)).isSome

/-- The adapter's invariant (10_state R29). -/
abbrev AcqInv (s : State) : Prop :=
  (s.acqBusy = true → 1 ≤ s.cpLen.toNat ∧ s.cpIdx.toNat < s.cpLen.toNat) ∧ (s.acqBusy = false → s.cpIdx = 0)

/-- The sequencer's invariant (10_state R28). -/
abbrev SynInv (s : State) : Prop :=
  (s.synSt ≠ .uninit → 1 ≤ s.tblLen.toNat ∧ s.tblLen.toNat ≤ tblDepth s.cfg ∧ s.idx.toNat < s.tblLen.toNat) ∧
    (s.synSt = .uninit → s.idx = 0) ∧
    (s.synSt = .running → 1 ≤ s.synPeriod.toNat ∧ s.pcnt.toNat < s.synPeriod.toNat)

/-- The RAMs keep their canonical form, their addresses and contents their ranges, and the registers whose width is an
elaboration parameter that width (10_state R22 to R24). -/
abbrev WidthInv (s : State) : Prop :=
  s.cfg.legal ∧
    (Memory.wf s.rbMem ∧ ∀ c ∈ s.rbMem, c.1 < capacity s.cfg ∧ c.2.toNat < 2 ^ s.cfg.sampleW) ∧
    (Memory.wf s.tblMem ∧ ∀ c ∈ s.tblMem, c.1 < tblDepth s.cfg ∧ c.2.toNat ≤ vmax s.cfg) ∧
    s.tblAddr.toNat < tblDepth s.cfg ∧ s.cpBase.toNat < 2 ^ s.cfg.addrW ∧ s.dacData.toNat ≤ vmax s.cfg

/-- The write pointer counts the pushes since reset (43_acquisition_adapter R194: `wp == acq_samples mod 2C`). -/
abbrev PushCountInv (s : State) : Prop :=
  s.cfg.legal ∧ s.wp.toNat = s.acqSamples.toNat % (2 * capacity s.cfg)

/-- The environment presents no reset in the next `n` cycles, all of them listed. -/
abbrev quietFor (n : Nat) (s : State) : Prop := n ≤ s.env.length ∧ ∀ x ∈ s.env.take n, x.rst = false

end Sys2Proof.Machine
end

