-- ==== Sys2Proof/Certificates/Slice0/Obligations.lean ====
section
/-! DEFINITION. The statements for the provers. Each docstring names the rule of spec/ it formalises. Statements about an operation are about
`exec`; `StepRunsTheCyclesOperations` carries them to a cycle. -/

open Sys2Proof Sys2Proof.Machine

/-! ## Words the statements use -/

/-- The number of a synthesis state (10_state R26). -/
def Sys2Proof.Claims.synNumber : SynState → Nat
  | .uninit => 0
  | .ready => 1
  | .running => 2
  | .stopped => 3

/-- The number of a result code (60_exceptions R281). -/
def Sys2Proof.Claims.resNumber : ResultCode → Nat
  | .ok => 0
  | .stateErr => 1
  | .cfgErr => 2
  | .notReady => 3
  | .badCmd => 4

/-- A read of address `a`, whatever `WDATA` is, is the operation `i` (30_encoding R80, R85). -/
def Sys2Proof.Claims.ReadAt (a : RegAddr) (i : Instr) : Prop := ∀ w : Word, decode (.htw (htwWord false a w)) = .ok i

/-- A write of `w` to address `a` is the operation `f w` (30_encoding R80, R83, R85). -/
def Sys2Proof.Claims.WriteAt (a : RegAddr) (f : Word → Instr) : Prop :=
  ∀ w : Word, decode (.htw (htwWord true a w)) = .ok (f w)

/-- The operation completes, returns the word of value `n`, and changes nothing else. -/
def Sys2Proof.Claims.ReadsAs (i : Instr) (s : State) (n : Nat) : Prop :=
  ∃ w : Word, w.toNat = n ∧ exec i s = .next { s with out := { s.out with hRdata := w } }

/-- The host reads RB_DATA in this cycle (40_cycle_and_bus R110, `pop_req`). -/
def Sys2Proof.Claims.popReq (x : Inputs) : Bool := x.hSel && !x.hWe && x.hAddr == 0x06

/-- The host writes the value `w` to CMD in this cycle. -/
def Sys2Proof.Claims.commands (x : Inputs) (w : Word) : Bool := x.hSel && x.hWe && x.hAddr == 0x02 && x.hWdata == w

/-- The firing of this cycle, if any, overlaps a pending write the DAC does not accept (44_synthesis_sequencer R214). -/
def Sys2Proof.Claims.reentrantFiring (s : State) (x : Inputs) : Bool :=
  s.synSt == .running && s.pcnt == 0 && s.dacValid && !x.dacReady

/-- An accepted firing happens in this cycle (44_synthesis_sequencer R215). -/
def Sys2Proof.Claims.acceptedFiring (s : State) (x : Inputs) : Bool :=
  s.synSt == .running && s.pcnt == 0 && !(s.dacValid && !x.dacReady)

/-- The codes that the accepted firings of the next `k` cycles write, in order (44_synthesis_sequencer R215). -/
def Sys2Proof.Claims.codesWritten : Nat → State → List Code
  | 0, _ => []
  | k + 1, s =>
    match step s with
    | .next t =>
      if Sys2Proof.Claims.acceptedFiring s (nextInputs s) then t.dacData :: Sys2Proof.Claims.codesWritten k t
      else Sys2Proof.Claims.codesWritten k t
    | _ => []

/-- A completion is accepted in this cycle (43_acquisition_adapter R181). -/
def Sys2Proof.Claims.acceptedBlock (s : State) (x : Inputs) : Bool := x.dmaDone && s.acqRun && !s.acqBusy

/-- A transaction that sets `last_res` (40_cycle_and_bus R117): a write to CMD, a configuration register or the load port. -/
def Sys2Proof.Claims.producesResult (x : Inputs) : Bool :=
  x.hSel && x.hWe && [0x02, 0x09, 0x0A, 0x0B, 0x10, 0x11, 0x15, 0x16, 0x17].contains x.hAddr.toNat

/-- One cycle of an abstract bounded queue that drops its oldest element when a push finds it full: the pop acts first. -/
def Sys2Proof.Claims.queueCycle (c : Nat) (pop : Bool) (push : Option Sample) (q : List Sample) : List Sample :=
  let q := if pop then q.tail else q
  match push with
  | none => q
  | some d => (if q.length = c then q.tail else q) ++ [d]

/-- The state fields of the sequencer. -/
def Sys2Proof.Claims.synPart (s : State) :=
  (s.cfg, s.synSt, s.tblMem, s.tblLen, s.tblAddr, s.synChan, s.synPeriod, s.pcnt, s.idx, s.synFires, s.dacValid, s.dacData)

/-- The state fields of the adapter and of the ring buffer. -/
def Sys2Proof.Claims.acqPart (s : State) :=
  (s.cfg, s.rbMem, s.wp, s.rp, s.ovfCnt, s.acqRun, s.acqBusy, s.cpBase, s.cpLen, s.cpIdx, s.ackQ, s.acqChan, s.acqRate,
    s.acqBlk, s.acqBlks, s.acqSamples)

/-- The host's ports and the reset of a cycle. -/
def Sys2Proof.Claims.hostPart (x : Inputs) := (x.rst, x.hSel, x.hWe, x.hAddr, x.hWdata)

open Sys2Proof.Claims

/-! ## Encoding -/

/-- Decode and encode agree, for every operation and every operand the encoding admits (30_encoding R80 to R85). -/
def Obligations.DecodeOfEncode : Prop := ∀ i : Instr, i.WellFormed = true → decode (encode i) = .ok i

/-- Every host transaction is an operation, and the catch-all rows get exactly the addresses and codes R85 lists. -/
def Obligations.CatchAllRowsTakeTheRest : Prop :=
  ∀ x : Inputs,
    (decodeHtw (hostWord x)).WellFormed = true ∧
    (x.hWe = false → (decodeHtw (hostWord x) = .rdRsvd x.hAddr ↔ x.hAddr.toNat ∈ [0x02, 0x0F] ∨ 0x19 ≤ x.hAddr.toNat)) ∧
    (x.hWe = true → (decodeHtw (hostWord x) = .wrIgnored x.hAddr x.hWdata ↔
      x.hAddr.toNat ∈ [0x00, 0x01, 0x03, 0x05, 0x06, 0x07, 0x08, 0x0C, 0x0D, 0x0E, 0x0F, 0x12, 0x13, 0x14] ∨
        0x18 ≤ x.hAddr.toNat))

/-- The eight encoding examples of 30_encoding R90. -/
def Obligations.PrintedWordsDecode : Prop :=
  decode (.htw 0x0000000000) = .ok .rdId ∧ decode (.htw 0x0600000000) = .ok .rdRbData ∧
    decode (.htw 0x4200000001) = .ok .cmdAcqStart ∧ decode (.htw 0x4200000005) = .ok .cmdTblCommit ∧
    decode (.htw 0x4200000010) = .ok (.cmdRsvd 0x10) ∧ decode (.htw 0x5100000002) = .ok (.wrSynPeriod 2) ∧
    decode (.htw 0x570000012C) = .ok (.wrTblData 300) ∧ decode (.htw 0x4400000007) = .ok (.wrFault 7)

/-- CMD decoding (30_encoding R84). -/
def Obligations.CommandDecoding : Prop :=
  ∀ x : Inputs, x.hWe = true → x.hAddr = 0x02 →
    decodeHtw (hostWord x) =
      if x.hWdata.toNat / 16 ≠ 0 then .cmdRsvd x.hWdata
      else match x.hWdata.toNat % 16 with
        | 0 => .cmdNop
        | 1 => .cmdAcqStart
        | 2 => .cmdAcqStop
        | 3 => .cmdSynStart
        | 4 => .cmdSynStop
        | 5 => .cmdTblCommit
        | _ => .cmdRsvd x.hWdata

/-! ## The step -/

/-- A step runs the decoded host operation: in a cycle with that operation and no event, the step is `exec` of it, with the
sampling of the ports before it and the per-cycle changes (`tick`: R180, R212) after a read or FAULT write, or before any
other write. The order of the two is the model's (log entry 4). -/
def Obligations.StepRunsTheDecodedHostOperation : Prop :=
  ∀ (s : State) (i : Instr),
    (nextInputs s).rst = false → (nextInputs s).hSel = true → decodeHtw (hostWord (nextInputs s)) = i →
    (nextInputs s).dmaDone = false → s.acqBusy = false → (s.dacValid && (nextInputs s).dacReady) = false →
    (s.synSt = .running → s.pcnt ≠ 0) →
    step s =
      if runsBeforeEvents i then andThen (exec i (beginCycle s)) (fun t => .next (tick t))
      else exec i (tick (beginCycle s))

/-- Every cycle is its operations run one after another, which of them being read from the pre-state and the inputs
(30_encoding R81, R82, R85): a reset cycle is EV_RESET alone. The order is the model's (log entry 4). -/
def Obligations.StepRunsTheCyclesOperations : Prop :=
  ∀ s : State,
    let x := nextInputs s
    let i := decodeHtw (hostWord x)
    (x.rst = true → step s = exec .evReset (beginCycle s)) ∧
    (x.rst = false →
      step s =
        andThen (if x.hSel && runsBeforeEvents i then exec i (beginCycle s) else .next (beginCycle s)) fun t =>
        andThen (if x.dmaDone then exec (.evDmaDone x.dmaPtr x.dmaLen) (tick t) else .next (tick t)) fun t =>
        andThen (if s.acqBusy then exec (.evCopyBeat x.srcData) t else .next t) fun t =>
        andThen (if s.dacValid && x.dacReady then exec .evDacAccept t else .next t) fun t =>
        andThen (if s.synSt = .running ∧ s.pcnt = 0 then exec .evFire t else .next t) fun t =>
        if x.hSel && !runsBeforeEvents i then exec i t else .next t)

/-- The machine's step is the step function of 40_cycle_and_bus R110 as the spec writes it (Machine/Reference.lean), in every
state whose occupied count is at most `C` (10_state R27: a state with more is unreachable). -/
def Obligations.StepIsTheSpecsCycle : Prop :=
  ∀ s : State, s.cfg.legal → cnt s ≤ capacity s.cfg → step s = .next (Reference.cycle s (nextInputs s))

/-- No operation and no cycle stops the block (60_exceptions R286). -/
def Obligations.NothingStopsTheBlock : Prop :=
  (∀ (i : Instr) (s : State), ∃ t, exec i s = .next t) ∧ ∀ s : State, ∃ t, step s = .next t

/-- A reset cycle: every register at its reset value, RAMs unchanged, nothing else of the cycle happens, the outputs those of
the pre-state with `h_rdata` 0 (70_reset_and_hazards R310, R311). -/
def Obligations.ResetCycleOverridesEverything : Prop :=
  ∀ s : State, (nextInputs s).rst = true →
    step s = .next { State.reset with
      cfg := s.cfg
      rbMem := s.rbMem
      tblMem := s.tblMem
      env := s.env.tail
      inp := nextInputs s
      out := { hRdata := 0, srcRd := s.acqBusy,
               srcAddr := BitVec.ofNat 32 ((s.cpBase.toNat + s.cpIdx.toNat) % 2 ^ s.cfg.addrW), dmaAck := s.ackQ,
               acqArm := s.acqRun, acqChanO := s.acqChan, acqRateO := s.acqRate, acqBlkO := s.acqBlk,
               dacValid := s.dacValid, dacData := s.dacData, dacChan := s.synChan }
      cycle := s.cycle + 1 }

/-! ## Host reads -/

/-- RD_ID, RD_PARAMS, RD_STATUS, RD_FAULT, RD_RSVD: their addresses; they complete, return their word and change nothing else
(R123, R124, R125, R285, R114). -/
def Obligations.BusReads : Prop :=
  (ReadAt 0x00 .rdId ∧ ReadAt 0x01 .rdParams ∧ ReadAt 0x03 .rdStatus ∧ ReadAt 0x04 .rdFault ∧
    ∀ a : RegAddr, a.toNat ∈ [0x02, 0x0F] ∨ 0x19 ≤ a.toNat → ReadAt a (.rdRsvd a)) ∧
  ∀ s : State,
    ReadsAs .rdId s 0x45490006 ∧
    (s.cfg.legal → ReadsAs .rdParams s
      (s.cfg.capLog2 + 2 ^ 4 * s.cfg.tblLog2 + 2 ^ 9 * s.cfg.sampleW + 2 ^ 14 * s.cfg.dacW + 2 ^ 19 * s.cfg.addrW)) ∧
    ReadsAs .rdStatus s
      (s.acqRun.toNat + 2 * s.acqBusy.toNat + 2 ^ 2 * synNumber s.synSt + 2 ^ 4 * s.dacValid.toNat +
        (if cnt s = 0 then 2 ^ 5 else 0) + (if cnt s = capacity s.cfg then 2 ^ 6 else 0) +
        (if s.fault = 0 then 0 else 2 ^ 7) + 2 ^ 8 * resNumber s.lastRes) ∧
    ReadsAs .rdFault s s.fault.toNat ∧
    ∀ a : RegAddr, ReadsAs (.rdRsvd a) s 0

/-- RD_RB_COUNT, RD_RB_PTRS, RD_OVF_CNT: their addresses; they complete, return their word and change nothing else (R166, R167,
R168); the count is `(wp − rp) mod 2C` (R27). -/
def Obligations.RingObservationReads : Prop :=
  (ReadAt 0x05 .rdRbCount ∧ ReadAt 0x07 .rdRbPtrs ∧ ReadAt 0x08 .rdOvfCnt) ∧
  ∀ s : State,
    (s.cfg.legal → ReadsAs .rdRbCount s
      (((s.wp.toNat : Int) - (s.rp.toNat : Int)) % (2 * 2 ^ s.cfg.capLog2 : Int)).toNat) ∧
    ReadsAs .rdRbPtrs s (2 ^ 16 * s.rp.toNat + s.wp.toNat) ∧
    ReadsAs .rdOvfCnt s s.ovfCnt.toNat

/-- RD_RB_DATA: its address; it returns the oldest unread sample with VALID and pops it, or returns 0 and changes nothing (R163,
R165). -/
def Obligations.PopReturnsTheOldestSample : Prop :=
  ReadAt 0x06 .rdRbData ∧
  ∀ s : State,
    (0 < cnt s → ∃ w : Word, w.toNat = 2 ^ 31 + (rbRead s (s.rp.toNat % 2 ^ s.cfg.capLog2)).toNat ∧
      exec .rdRbData s = .next { s with
        out := { s.out with hRdata := w }
        rp := BitVec.ofNat 16 ((s.rp.toNat + 1) % (2 * 2 ^ s.cfg.capLog2)) }) ∧
    (cnt s = 0 → ReadsAs .rdRbData s 0)

/-- The adapter's observation registers: their addresses; their reads complete, return their word and change nothing else (R193
to R198). -/
def Obligations.AdapterReads : Prop :=
  (ReadAt 0x0C .rdAcqBlks ∧ ReadAt 0x0D .rdAcqSamples ∧ ReadAt 0x0E .rdAcqCur ∧ ReadAt 0x09 .rdAcqChan ∧
    ReadAt 0x0A .rdAcqRate ∧ ReadAt 0x0B .rdAcqBlk) ∧
  ∀ s : State,
    ReadsAs .rdAcqBlks s s.acqBlks.toNat ∧ ReadsAs .rdAcqSamples s s.acqSamples.toNat ∧
    ReadsAs .rdAcqCur s (2 ^ 16 * s.cpLen.toNat + s.cpIdx.toNat) ∧ ReadsAs .rdAcqChan s s.acqChan.toNat ∧
    ReadsAs .rdAcqRate s s.acqRate.toNat ∧ ReadsAs .rdAcqBlk s s.acqBlk.toNat

/-- The sequencer's observation registers: their addresses; their reads complete, return their word and change nothing else
(R222 to R227). -/
def Obligations.SequencerReads : Prop :=
  (ReadAt 0x12 .rdSynIdx ∧ ReadAt 0x13 .rdSynPcnt ∧ ReadAt 0x14 .rdSynFires ∧ ReadAt 0x18 .rdDacOut ∧
    ReadAt 0x10 .rdSynChan ∧ ReadAt 0x11 .rdSynPeriod) ∧
  ∀ s : State,
    ReadsAs .rdSynIdx s s.idx.toNat ∧ ReadsAs .rdSynPcnt s s.pcnt.toNat ∧ ReadsAs .rdSynFires s s.synFires.toNat ∧
    ReadsAs .rdDacOut s (s.dacData.toNat + 2 ^ 16 * s.dacValid.toNat) ∧ ReadsAs .rdSynChan s s.synChan.toNat ∧
    ReadsAs .rdSynPeriod s s.synPeriod.toNat

/-- The load port's reads: their addresses; they complete, return their word and change nothing else (R143, R144, R146): an
entry not written since power-up reads as some value in `[0, VMAX]`, whatever the free value is. -/
def Obligations.TableReads : Prop :=
  (ReadAt 0x15 .rdTblLen ∧ ReadAt 0x16 .rdTblAddr ∧ ReadAt 0x17 .rdTblData) ∧
  ∀ s : State,
    ReadsAs .rdTblLen s s.tblLen.toNat ∧ ReadsAs .rdTblAddr s s.tblAddr.toNat ∧
    (∀ v, s.tblMem.cellAt s.tblAddr.toNat = some v → ReadsAs .rdTblData s v.toNat) ∧
    (s.tblMem.cellAt s.tblAddr.toNat = none → ∃ n < 2 ^ s.cfg.dacW, ReadsAs .rdTblData s n)

/-! ## Host writes and commands -/

/-- WR_IGNORED: a write to any address not in the dispatch table of R115; it changes nothing, not even `last_res` (R116). -/
def Obligations.IgnoredWritesChangeNothing : Prop :=
  (∀ a : RegAddr, a.toNat ∉ [0x02, 0x04, 0x09, 0x0A, 0x0B, 0x10, 0x11, 0x15, 0x16, 0x17] → WriteAt a (.wrIgnored a)) ∧
  ∀ (a : RegAddr) (w : Word) (s : State), exec (.wrIgnored a w) s = .next s

/-- CMD_NOP and CMD_RSVD: their words; they write their result code and nothing else (R119, R120). -/
def Obligations.NopAndReservedCommands : Prop :=
  decode (.htw 0x4200000000) = .ok .cmdNop ∧
  (∀ w : Word, w.toNat / 16 ≠ 0 ∨ 0x6 ≤ w.toNat % 16 → decode (.htw (htwWord true 0x02 w)) = .ok (.cmdRsvd w)) ∧
  ∀ (w : Word) (s : State),
    exec .cmdNop s = .next { s with lastRes := .ok } ∧ exec (.cmdRsvd w) s = .next { s with lastRes := .badCmd }

/-- WR_FAULT, its mask `WDATA[2:0]`: it clears exactly the bits of its mask and changes nothing else; the merge with the sets of
the same cycle is `FaultMergeSetWins` (R284). -/
def Obligations.FaultWriteClearsTheMask : Prop :=
  WriteAt 0x04 (fun w => .wrFault (w.extractLsb' 0 3)) ∧
  ∀ (m : FaultBits) (s : State), ∃ f : FaultBits,
    exec (.wrFault m) s = .next { s with fault := f } ∧ ∀ b, f.getLsbD b = (s.fault.getLsbD b && !m.getLsbD b)

/-- In every cycle without reset FAULT becomes `(s.fault ∧ ¬m) ∨ set_acq ∨ set_syn`: each bit set by exactly its event, a set
winning over a clear of the same cycle; a write of FAULT leaves `last_res` (R283, R284). -/
def Obligations.FaultMergeSetWins : Prop :=
  ∀ s t : State, (nextInputs s).rst = false → step s = .next t →
    let x := nextInputs s
    let cleared := fun b => x.hSel && x.hWe && x.hAddr == 0x04 && x.hWdata.getLsbD b
    t.fault.getLsbD 0 = ((s.fault.getLsbD 0 && !cleared 0) || (x.dmaDone && s.acqRun && s.acqBusy)) ∧
    t.fault.getLsbD 1 = ((s.fault.getLsbD 1 && !cleared 1) || (acceptedBlock s x && x.dmaLen != s.acqBlk)) ∧
    t.fault.getLsbD 2 = ((s.fault.getLsbD 2 && !cleared 2) || reentrantFiring s x) ∧
    (x.hSel = true → x.hWe = true → x.hAddr = 0x04 → t.lastRes = s.lastRes)

/-- The load-port writes and their operands (R140, R141, R142): in UNINIT performed with OK, in every other state refused with STATE_ERR. The
stored word is the one at the load address, every other table word reads as before. -/
def Obligations.TableLoadWrites : Prop :=
  (WriteAt 0x15 (fun w => .wrTblLen (w.extractLsb' 0 17)) ∧ WriteAt 0x16 .wrTblAddr ∧ WriteAt 0x17 .wrTblData) ∧
  ∀ s : State,
    (s.synSt = .uninit →
      (∀ n, exec (.wrTblLen n) s = .next { s with tblLen := n, lastRes := .ok }) ∧
      (s.cfg.legal → ∀ w : Word, ∃ a : BitVec 16, a.toNat = w.toNat % 2 ^ s.cfg.tblLog2 ∧
        exec (.wrTblAddr w) s = .next { s with tblAddr := a, lastRes := .ok }) ∧
      (s.cfg.legal → ∀ w : Word, ∃ (m : Memory) (a v : BitVec 16),
        a.toNat = (s.tblAddr.toNat + 1) % 2 ^ s.cfg.tblLog2 ∧ v.toNat = min w.toNat (2 ^ s.cfg.dacW - 1) ∧
        (∀ b, m.cellAt b = if b = s.tblAddr.toNat then some v else s.tblMem.cellAt b) ∧
        exec (.wrTblData w) s = .next { s with tblMem := m, tblAddr := a, lastRes := .ok })) ∧
    (s.synSt ≠ .uninit → ∀ n (w : Word),
      exec (.wrTblLen n) s = .next { s with lastRes := .stateErr } ∧
      exec (.wrTblAddr w) s = .next { s with lastRes := .stateErr } ∧
      exec (.wrTblData w) s = .next { s with lastRes := .stateErr })

/-- CMD_TBL_COMMIT (R145), its word, the checks in the order written. -/
def Obligations.TableCommit : Prop :=
  decode (.htw 0x4200000005) = .ok .cmdTblCommit ∧
  ∀ s : State,
    (s.synSt ≠ .uninit → exec .cmdTblCommit s = .next { s with lastRes := .stateErr }) ∧
    (s.synSt = .uninit → (s.tblLen = 0 ∨ 2 ^ s.cfg.tblLog2 < s.tblLen.toNat) →
      exec .cmdTblCommit s = .next { s with lastRes := .cfgErr }) ∧
    (s.synSt = .uninit → s.tblLen ≠ 0 → s.tblLen.toNat ≤ 2 ^ s.cfg.tblLog2 →
      exec .cmdTblCommit s = .next { s with synSt := .ready, lastRes := .ok })

/-- WR_ACQ_CHAN, WR_ACQ_RATE, WR_ACQ_BLK and their operands (R188, R189, R192). -/
def Obligations.AcquisitionConfigurationWrites : Prop :=
  (WriteAt 0x09 (fun w => .wrAcqChan (w.extractLsb' 0 8)) ∧ WriteAt 0x0A .wrAcqRate ∧
    WriteAt 0x0B (fun w => .wrAcqBlk (w.extractLsb' 0 16))) ∧
  ∀ (s : State) (c : Chan) (r : Word) (b : Len),
    (s.acqRun = false →
      exec (.wrAcqChan c) s = .next { s with acqChan := c, lastRes := .ok } ∧
      exec (.wrAcqRate r) s = .next { s with acqRate := r, lastRes := .ok } ∧
      exec (.wrAcqBlk b) s = .next { s with acqBlk := b, lastRes := .ok }) ∧
    (s.acqRun = true →
      exec (.wrAcqChan c) s = .next { s with lastRes := .stateErr } ∧
      exec (.wrAcqRate r) s = .next { s with lastRes := .stateErr } ∧
      exec (.wrAcqBlk b) s = .next { s with lastRes := .stateErr })

/-- CMD_ACQ_START (R190), its word, the checks in the order written. -/
def Obligations.AcquisitionStart : Prop :=
  decode (.htw 0x4200000001) = .ok .cmdAcqStart ∧
  ∀ s : State,
    (s.acqRun = true → exec .cmdAcqStart s = .next { s with lastRes := .stateErr }) ∧
    (s.acqRun = false → (s.acqRate = 0 ∨ s.acqBlk = 0 ∨ 2 ^ s.cfg.capLog2 < s.acqBlk.toNat ∨ s.inp.acqCfgOk = false) →
      exec .cmdAcqStart s = .next { s with lastRes := .cfgErr }) ∧
    (s.acqRun = false → s.acqRate ≠ 0 → s.acqBlk ≠ 0 → s.acqBlk.toNat ≤ 2 ^ s.cfg.capLog2 → s.inp.acqCfgOk = true →
      exec .cmdAcqStart s = .next { s with acqRun := true, lastRes := .ok })

/-- CMD_ACQ_STOP (R191): its word, OK in every state, a copy in progress untouched. -/
def Obligations.AcquisitionStop : Prop :=
  decode (.htw 0x4200000002) = .ok .cmdAcqStop ∧
  ∀ s : State, exec .cmdAcqStop s = .next { s with acqRun := false, lastRes := .ok }

/-- WR_SYN_CHAN, WR_SYN_PERIOD and their operands (R218, R219). -/
def Obligations.SynthesisConfigurationWrites : Prop :=
  (WriteAt 0x10 (fun w => .wrSynChan (w.extractLsb' 0 8)) ∧ WriteAt 0x11 .wrSynPeriod) ∧
  ∀ (s : State) (c : Chan) (p : Word),
    (s.synSt ≠ .running →
      exec (.wrSynChan c) s = .next { s with synChan := c, lastRes := .ok } ∧
      exec (.wrSynPeriod p) s = .next { s with synPeriod := p, lastRes := .ok }) ∧
    (s.synSt = .running →
      exec (.wrSynChan c) s = .next { s with lastRes := .stateErr } ∧
      exec (.wrSynPeriod p) s = .next { s with lastRes := .stateErr })

/-- CMD_SYN_START (R220), its word, the checks in the order written; the session starts at index 0 with a full period ahead. -/
def Obligations.SynthesisStart : Prop :=
  decode (.htw 0x4200000003) = .ok .cmdSynStart ∧
  ∀ s : State,
    (s.synSt = .running → exec .cmdSynStart s = .next { s with lastRes := .stateErr }) ∧
    (s.synSt = .uninit → exec .cmdSynStart s = .next { s with lastRes := .notReady }) ∧
    (s.synSt = .ready ∨ s.synSt = .stopped → s.synPeriod = 0 → exec .cmdSynStart s = .next { s with lastRes := .cfgErr }) ∧
    (s.synSt = .ready ∨ s.synSt = .stopped → s.synPeriod ≠ 0 →
      exec .cmdSynStart s =
        .next { s with
          synSt := .running, idx := 0, pcnt := BitVec.ofNat 32 (s.synPeriod.toNat - 1), lastRes := .ok })

/-- CMD_SYN_STOP (R221): its word, OK in every state; index, period counter and pending write are kept. -/
def Obligations.SynthesisStop : Prop :=
  decode (.htw 0x4200000004) = .ok .cmdSynStop ∧
  ∀ s : State,
    (s.synSt = .running → exec .cmdSynStop s = .next { s with synSt := .stopped, lastRes := .ok }) ∧
    (s.synSt ≠ .running → exec .cmdSynStop s = .next { s with lastRes := .ok })

/-- Both stops are idempotent: a second stop changes nothing (20_memory R64). -/
def Obligations.StopsAreIdempotent : Prop :=
  ∀ s t : State,
    (exec .cmdAcqStop s = .next t → exec .cmdAcqStop t = .next t) ∧
    (exec .cmdSynStop s = .next t → exec .cmdSynStop t = .next t)

/-! ## Events -/

/-- EV_DMA_DONE: ignored while stopped (R185), a reentry during a copy (R184), accepted with the desync check otherwise
(R181, R182, R186). Memory is untouched in every case. -/
def Obligations.DmaCompletion : Prop :=
  ∀ (s : State) (p : SrcAddr) (l : Len),
    (s.acqRun = false → exec (.evDmaDone p l) s = .next s) ∧
    (s.acqRun = true → s.acqBusy = true → exec (.evDmaDone p l) s = .next { s with fault := s.fault ||| 0b001 }) ∧
    (s.acqRun = true → s.acqBusy = false → l ≠ 0 →
      exec (.evDmaDone p l) s = .next { s with
        acqBusy := true, cpBase := BitVec.ofNat 32 (p.toNat % 2 ^ s.cfg.addrW), cpLen := l, cpIdx := 0
        fault := if l = s.acqBlk then s.fault else s.fault ||| 0b010 }) ∧
    (s.acqRun = true → s.acqBusy = false → l = 0 →
      exec (.evDmaDone p l) s = .next { s with
        ackQ := true, acqBlks := s.acqBlks + 1
        fault := if l = s.acqBlk then s.fault else s.fault ||| 0b010 })

/-- EV_COPY_BEAT in a state with a copy in progress: the sample goes to the slot of `wp` and every other slot reads as before;
the pointers, the overflow count and the copy counter change as R183, R161 and R162 say, and nothing else does. Without a
copy the spec has no beat; that `exec` then changes nothing is the model's (DEDUCED, log entry 11). -/
def Obligations.CopyBeatPushesOneSample : Prop :=
  ∀ (s : State) (d : Sample),
    (s.acqBusy = true →
      let last := s.cpIdx.toNat + 1 = s.cpLen.toNat
      ∃ m : Memory,
        (∀ a, m.cellAt a =
          if a = s.wp.toNat % 2 ^ s.cfg.capLog2 then some (BitVec.ofNat 16 (d.toNat % 2 ^ s.cfg.sampleW)) else s.rbMem.cellAt a) ∧
        exec (.evCopyBeat d) s = .next { s with
          rbMem := m
          wp := BitVec.ofNat 16 ((s.wp.toNat + 1) % (2 * 2 ^ s.cfg.capLog2))
          rp := if cnt s = 2 ^ s.cfg.capLog2 then BitVec.ofNat 16 ((s.rp.toNat + 1) % (2 * 2 ^ s.cfg.capLog2)) else s.rp
          ovfCnt := if cnt s = 2 ^ s.cfg.capLog2 then s.ovfCnt + 1 else s.ovfCnt
          acqSamples := s.acqSamples + 1
          acqBusy := !decide last
          cpIdx := if last then 0 else s.cpIdx + 1
          ackQ := if last then true else s.ackQ
          acqBlks := if last then s.acqBlks + 1 else s.acqBlks }) ∧
    (s.acqBusy = false → exec (.evCopyBeat d) s = .next s)

/-- EV_FIRE where the firing condition holds: accepted, one DAC write and one index increment (R215), or, over a pending write
that the DAC does not take, a reentry and nothing else but the reload of the period counter (R214, R212). -/
def Obligations.Firing : Prop :=
  ∀ s : State, s.synSt = .running → s.pcnt = 0 →
    (s.dacValid = false ∨ s.inp.dacReady = true →
      exec .evFire s = .next { s with
        pcnt := s.synPeriod - 1
        dacData := tblRead s s.idx.toNat
        dacValid := true
        idx := if s.idx.toNat + 1 = s.tblLen.toNat then 0 else s.idx + 1
        synFires := s.synFires + 1 }) ∧
    (s.dacValid = true → s.inp.dacReady = false →
      exec .evFire s = .next { s with pcnt := s.synPeriod - 1, fault := s.fault ||| 0b100 })

/-- EV_DAC_ACCEPT takes the pending write; `dac_ready` without a pending write, and a pending write without `dac_ready`, do
nothing (R216; that `exec` is total there is the model's, DEDUCED, log entry 11). -/
def Obligations.DacAccept : Prop :=
  ∀ s : State,
    (s.dacValid = true → s.inp.dacReady = true → exec .evDacAccept s = .next { s with dacValid := false }) ∧
    (s.dacValid = false ∨ s.inp.dacReady = false → exec .evDacAccept s = .next s)

/-- EV_RESET: the register values of R310, both RAMs unchanged. -/
def Obligations.ResetValues : Prop :=
  ∀ s : State, exec .evReset s = .next { State.reset with
    cfg := s.cfg, rbMem := s.rbMem, tblMem := s.tblMem, env := s.env, inp := s.inp, out := s.out, cycle := s.cycle }

/-! ## Invariants every step keeps -/

/-- The ring buffer's invariant (10_state R27, 70_reset_and_hazards R313). -/
def Obligations.StepKeepsRingInv : Prop := ∀ s t : State, RingInv s → step s = .next t → RingInv t

/-- The adapter's invariant (10_state R29). -/
def Obligations.StepKeepsAcqInv : Prop := ∀ s t : State, AcqInv s → step s = .next t → AcqInv t

/-- The sequencer's invariant (10_state R28). -/
def Obligations.StepKeepsSynInv : Prop := ∀ s t : State, SynInv s → step s = .next t → SynInv t

/-- Widths that are elaboration parameters (10_state R22 to R24, R42). That the two RAMs are lists of strictly rising addresses is the
model's form of them (DESIGN CHOICE, log entry 10); the bounds on registers are there because the model holds those registers
at the greatest width of their parameter (DESIGN CHOICE, log entry 15). -/
def Obligations.StepKeepsWidthInv : Prop := ∀ s t : State, WidthInv s → step s = .next t → WidthInv t

/-- `wp == acq_samples mod 2C` (43_acquisition_adapter R194). -/
def Obligations.StepKeepsPushCountInv : Prop := ∀ s t : State, PushCountInv s → step s = .next t → PushCountInv t

/-- The reset state meets all five. -/
def Obligations.ResetMeetsTheInvariants : Prop :=
  RingInv State.reset ∧ AcqInv State.reset ∧ SynInv State.reset ∧ WidthInv State.reset ∧ PushCountInv State.reset

/-! ## The whole machine -/

/-- The ring buffer is a bounded queue that drops its oldest sample (20_memory R70, 42_ring_buffer R160 to R165): what is unread
after a cycle is what the abstract queue holds, and a read of RB_DATA returns the queue's head, before any push of the same
cycle. -/
def Obligations.RingRefinesDropOldestQueue : Prop :=
  ∀ s t : State, RingInv s → (nextInputs s).rst = false → step s = .next t →
    let x := nextInputs s
    unread t = queueCycle (capacity s.cfg) (popReq x)
      (if s.acqBusy then some (BitVec.ofNat 16 (x.srcData.toNat % 2 ^ s.cfg.sampleW)) else none) (unread s) ∧
    (popReq x = true → t.out.hRdata = match unread s with
      | [] => 0
      | d :: _ => BitVec.ofNat 32 (2 ^ 31 + d.toNat))

/-- The occupied-count law (42_ring_buffer R169). -/
def Obligations.OccupiedCountLaw : Prop :=
  ∀ s t : State, RingInv s → (nextInputs s).rst = false → step s = .next t →
    let push := s.acqBusy
    let pop := popReq (nextInputs s) && decide (0 < cnt s)
    cnt t = if push && !pop && decide (cnt s = capacity s.cfg) then capacity s.cfg
      else cnt s + push.toNat - pop.toNat

/-- The overflow law (42_ring_buffer R170): `m` pushes and no pop from `c` unread samples leave the newest `min(C, c + m)` of the
sequence, and count the rest as overflow. -/
def Obligations.OverflowLaw : Prop :=
  ∀ (m : Nat) (s : State), RingInv s → s.acqBusy = true → s.cpIdx.toNat + m ≤ s.cpLen.toNat → quietFor m s →
    (∀ x ∈ s.env.take m, popReq x = false) →
    ∃ t : State, Sys2Proof.core.run m s = .next t ∧
      cnt t = min (capacity s.cfg) (cnt s + m) ∧
      t.ovfCnt.toNat = (s.ovfCnt.toNat + (cnt s + m - capacity s.cfg)) % 2 ^ 32 ∧
      unread t = (unread s ++ (s.env.take m).map fun x => BitVec.ofNat 16 (x.srcData.toNat % 2 ^ s.cfg.sampleW)).drop
        (cnt s + m - capacity s.cfg)

/-- Copy completeness (43_acquisition_adapter R199): a copy in progress reads the rest of its block in address order, one sample
a cycle, whatever the host and the DMA engine do but reset; then it ends, is counted, and its acknowledge is due. -/
def Obligations.CopyCompletes : Prop :=
  ∀ (n : Nat) (s : State), AcqInv s → s.acqBusy = true → n = s.cpLen.toNat - s.cpIdx.toNat → quietFor n s →
    (∀ k < n, ∃ t : State, Sys2Proof.core.run (k + 1) s = .next t ∧ t.out.srcRd = true ∧ t.out.dmaAck = (s.ackQ && k == 0) ∧
      t.out.srcAddr.toNat = (s.cpBase.toNat + s.cpIdx.toNat + k) % 2 ^ s.cfg.addrW % 2 ^ 32) ∧
    ∃ t : State, Sys2Proof.core.run n s = .next t ∧ t.acqBusy = false ∧ t.ackQ = true ∧ t.acqBlks = s.acqBlks + 1 ∧
      t.acqSamples = s.acqSamples + BitVec.ofNat 32 n

/-- Firing cadence (44_synthesis_sequencer R211, R212): while a session is not reset or stopped, the period counter counts down
to its next firing and then reloads, so that firings are exactly `P` cycles apart. -/
def Obligations.FiringCadence : Prop :=
  ∀ (n : Nat) (s : State), SynInv s → s.synSt = .running → n = s.pcnt.toNat → quietFor (n + 1) s →
    (∀ x ∈ s.env.take (n + 1), commands x 4 = false) →
    (∀ k ≤ n, ∃ t : State, Sys2Proof.core.run k s = .next t ∧ t.synSt = .running ∧ t.synPeriod = s.synPeriod ∧
      t.pcnt.toNat = n - k) ∧
    ∃ t : State, Sys2Proof.core.run (n + 1) s = .next t ∧ t.synSt = .running ∧ t.synPeriod = s.synPeriod ∧
      t.pcnt.toNat = s.synPeriod.toNat - 1

/-- How the table index moves in a cycle without reset (44_synthesis_sequencer R215, R220, R214): an accepted firing advances it
modulo the table length, a successful start sets it to 0, and in every other cycle, a reentrant firing's among them, it holds;
so does the count of accepted firings but for the accepted firing itself. -/
def Obligations.TableIndexMoves : Prop :=
  ∀ s t : State, WidthInv s → SynInv s → (nextInputs s).rst = false → step s = .next t →
    t.idx.toNat =
      (if acceptedFiring s (nextInputs s) then (if s.idx.toNat + 1 = s.tblLen.toNat then 0 else s.idx.toNat + 1)
      else if commands (nextInputs s) 3 ∧ (s.synSt = .ready ∨ s.synSt = .stopped) ∧ s.synPeriod ≠ 0 then 0
      else s.idx.toNat) ∧
    t.synFires = (if acceptedFiring s (nextInputs s) then s.synFires + 1 else s.synFires) ∧
    (reentrantFiring s (nextInputs s) = true → t.idx = s.idx ∧ t.synFires = s.synFires)

/-- Wrap law (44_synthesis_sequencer R228, with R229): in a session of any period, with a DAC that is ready or not, which is not reset
or stopped meanwhile, the index moves by the number of accepted firings, modulo the table length, whatever reentrant firings
come between; the codes written are the table's entries in turn from the index on, around the table; and after a whole table
the index is back. Where the DAC is always ready no firing is reentrant, and with period 1 every cycle is an accepted firing. -/
def Obligations.WrapLaw : Prop :=
  ∀ (k : Nat) (s : State), s.cfg.legal → SynInv s → s.synSt = .running → quietFor k s →
    (∀ x ∈ s.env.take k, commands x 4 = false) →
    ∃ t : State, Sys2Proof.core.run k s = .next t ∧ t.synSt = .running ∧ t.tblLen = s.tblLen ∧
      t.idx.toNat = (s.idx.toNat + (codesWritten k s).length) % s.tblLen.toNat ∧
      t.synFires = s.synFires + BitVec.ofNat 32 (codesWritten k s).length ∧
      codesWritten k s =
        (List.range (codesWritten k s).length).map (fun j => tblRead s ((s.idx.toNat + j) % s.tblLen.toNat)) ∧
      ((codesWritten k s).length = s.tblLen.toNat → t.idx = s.idx) ∧
      ((∀ x ∈ s.env.take k, x.dacReady = true) →
        (s.fault.getLsbD 2 = false → t.fault.getLsbD 2 = false) ∧
        (s.synPeriod = 1 → (codesWritten k s).length = k))

/-- The period counter (44_synthesis_sequencer R212): it counts down and reloads while RUNNING, and otherwise holds its value
but for the load of a start. -/
def Obligations.PeriodCounter : Prop :=
  ∀ s t : State, (nextInputs s).rst = false → step s = .next t →
    t.pcnt =
      if s.synSt = .running then (if s.pcnt = 0 then s.synPeriod - 1 else s.pcnt - 1)
      else if commands (nextInputs s) 3 ∧ (s.synSt = .ready ∨ s.synSt = .stopped) ∧ s.synPeriod ≠ 0 then s.synPeriod - 1
      else s.pcnt

/-- `dma_ack` is 1 in exactly the cycle after a copy ends or a zero-length block is accepted (43_acquisition_adapter R187). -/
def Obligations.AcknowledgeFollowsTheCopy : Prop :=
  ∀ s t u : State, (nextInputs s).rst = false → step s = .next t → step t = .next u →
    (u.out.dmaAck = true ↔
      (s.acqBusy = true ∧ s.cpIdx.toNat + 1 = s.cpLen.toNat) ∨ (acceptedBlock s (nextInputs s) = true ∧ (nextInputs s).dmaLen = 0))

/-- Field ownership of the host (40_cycle_and_bus R122): without a host write and without reset, no configuration, session state,
table word or result code changes; and the elaboration parameters never change. -/
def Obligations.OnlyHostWritesConfigure : Prop :=
  ∀ s t : State, step s = .next t → t.cfg = s.cfg ∧
    ((nextInputs s).rst = false → ((nextInputs s).hSel && (nextInputs s).hWe) = false →
      t.acqChan = s.acqChan ∧ t.acqRate = s.acqRate ∧ t.acqBlk = s.acqBlk ∧ t.acqRun = s.acqRun ∧ t.synChan = s.synChan ∧
        t.synPeriod = s.synPeriod ∧ t.synSt = s.synSt ∧ t.tblLen = s.tblLen ∧ t.tblAddr = s.tblAddr ∧
        t.tblMem = s.tblMem ∧ t.lastRes = s.lastRes)

/-- The transitions of the synthesis state machine (10_state R26): commit, start, stop, and no other without reset. -/
def Obligations.SynthesisStateTransitions : Prop :=
  ∀ s t : State, (nextInputs s).rst = false → step s = .next t →
    let x := nextInputs s
    t.synSt =
      if commands x 5 ∧ s.synSt = .uninit ∧ s.tblLen ≠ 0 ∧ s.tblLen.toNat ≤ tblDepth s.cfg then .ready
      else if commands x 3 ∧ (s.synSt = .ready ∨ s.synSt = .stopped) ∧ s.synPeriod ≠ 0 then .running
      else if commands x 4 ∧ s.synSt = .running then .stopped
      else s.synSt

/-- The event counters count exactly their events, by one, wrapping, and no host access clears them (10_state R37). -/
def Obligations.CountersCountTheirEvents : Prop :=
  ∀ s t : State, RingInv s → (nextInputs s).rst = false → step s = .next t →
    let x := nextInputs s
    t.ovfCnt = (if s.acqBusy ∧ cnt s = capacity s.cfg ∧ popReq x = false then s.ovfCnt + 1 else s.ovfCnt) ∧
    t.acqSamples = (if s.acqBusy then s.acqSamples + 1 else s.acqSamples) ∧
    t.acqBlks = (if (s.acqBusy ∧ s.cpIdx.toNat + 1 = s.cpLen.toNat) ∨ (acceptedBlock s x ∧ x.dmaLen = 0) then s.acqBlks + 1
      else s.acqBlks) ∧
    t.synFires = (if acceptedFiring s x then s.synFires + 1 else s.synFires)

/-- Exactly the result-producing writes set `last_res` (40_cycle_and_bus R117): any other cycle leaves it, and what such a write
stores does not depend on the code before. -/
def Obligations.OnlyResultWritesSetLastRes : Prop :=
  ∀ s t : State, (nextInputs s).rst = false → step s = .next t →
    (producesResult (nextInputs s) = false → t.lastRes = s.lastRes) ∧
    (producesResult (nextInputs s) = true → ∀ (r : ResultCode) (u : State), step { s with lastRes := r } = .next u →
      u.lastRes = t.lastRes)

/-- A refused write or command changes no state except `last_res` (60_exceptions R281): the cycle is the one with no
transaction, with the result code written. -/
def Obligations.RefusedWriteChangesOnlyLastRes : Prop :=
  ∀ s t : State, (nextInputs s).rst = false → producesResult (nextInputs s) = true → step s = .next t → t.lastRes ≠ .ok →
    ∃ u : State, step { s with env := { nextInputs s with hSel := false } :: s.env.tail } = .next u ∧
      t = { u with lastRes := t.lastRes, inp := nextInputs s }

/-- No event sees the command of its own cycle (60_exceptions R290): whether a completion begins a copy is decided by the
pre-state's `acq_run`, whatever the host does in the cycle. -/
def Obligations.CompletionSeesThePreState : Prop :=
  ∀ s t : State, (nextInputs s).rst = false → s.acqBusy = false → step s = .next t →
    t.acqBusy = ((nextInputs s).dmaDone && s.acqRun && (nextInputs s).dmaLen != 0) ∧
    (t.acqBusy = true → t.cpLen = (nextInputs s).dmaLen ∧ t.cpIdx = 0 ∧
      t.cpBase = BitVec.ofNat 32 ((nextInputs s).dmaPtr.toNat % 2 ^ s.cfg.addrW))

/-- Independence of the event paths (40_cycle_and_bus R111): the sequencer's next state depends on its own state, the host and
the DAC alone; the adapter's and the ring's on their own state, the host, the DMA engine and the acquisition hardware
alone. -/
def Obligations.EventPathsAreIndependent : Prop :=
  ∀ s₁ s₂ t₁ t₂ : State, step s₁ = .next t₁ → step s₂ = .next t₂ →
    hostPart (nextInputs s₁) = hostPart (nextInputs s₂) →
    (synPart s₁ = synPart s₂ → (nextInputs s₁).dacReady = (nextInputs s₂).dacReady → synPart t₁ = synPart t₂) ∧
    (acqPart s₁ = acqPart s₂ →
      (nextInputs s₁).dmaDone = (nextInputs s₂).dmaDone → (nextInputs s₁).dmaPtr = (nextInputs s₂).dmaPtr →
      (nextInputs s₁).dmaLen = (nextInputs s₂).dmaLen → (nextInputs s₁).srcData = (nextInputs s₂).srcData →
      (nextInputs s₁).acqCfgOk = (nextInputs s₂).acqCfgOk → acqPart t₁ = acqPart t₂)

/-- The pending DAC write is held until accepted, and only an accepted firing changes it (44_synthesis_sequencer R217). -/
def Obligations.PendingDacWriteIsStable : Prop :=
  ∀ s t : State, (nextInputs s).rst = false → step s = .next t →
    t.dacData = (if acceptedFiring s (nextInputs s) then tblRead s s.idx.toNat else s.dacData) ∧
    t.dacValid = (acceptedFiring s (nextInputs s) || (s.dacValid && !(nextInputs s).dacReady))

/-- Cursor ownership (42_ring_buffer R172): `wp` changes only by a push, `rp` only by a pop or an overflow discard. -/
def Obligations.CursorOwnership : Prop :=
  ∀ s t : State, RingInv s → (nextInputs s).rst = false → step s = .next t →
    t.wp = (if s.acqBusy then nextPtr s.cfg s.wp else s.wp) ∧
    t.rp = (if (popReq (nextInputs s) ∧ 0 < cnt s) ∨ (s.acqBusy ∧ cnt s = capacity s.cfg) then nextPtr s.cfg s.rp else s.rp)

/-- After a commit no cycle changes the table, and reset does not either (41_waveform_table R142, 20_memory R74,
70_reset_and_hazards R313). -/
def Obligations.CommittedTableIsLocked : Prop :=
  ∀ s t : State, s.synSt ≠ .uninit → step s = .next t →
    t.tblMem = s.tblMem ∧ ((nextInputs s).rst = false → t.tblLen = s.tblLen ∧ t.tblAddr = s.tblAddr ∧ t.synSt ≠ .uninit)

/-- The output ports of a cycle are the registered outputs of its pre-state (10_state R31), and `h_rdata` is 0 in a cycle with no
read, or with reset (40_cycle_and_bus R112, 70_reset_and_hazards R311). -/
def Obligations.OutputsAreRegistered : Prop :=
  ∀ s t : State, step s = .next t →
    t.out = { hRdata := t.out.hRdata, srcRd := s.acqBusy,
              srcAddr := BitVec.ofNat 32 ((s.cpBase.toNat + s.cpIdx.toNat) % 2 ^ s.cfg.addrW), dmaAck := s.ackQ,
              acqArm := s.acqRun, acqChanO := s.acqChan, acqRateO := s.acqRate, acqBlkO := s.acqBlk,
              dacValid := s.dacValid, dacData := s.dacData, dacChan := s.synChan } ∧
    (((nextInputs s).rst || !(nextInputs s).hSel || (nextInputs s).hWe) = true → t.out.hRdata = 0)

/-- The range and period laws of the table formula (41_waveform_table R147, R148): every code is in `[0, VMAX]`; nothing is clamped
where the unrounded wave stays in range; and a length divisible by 4 gives the exact quarter values. -/
def Obligations.GeneratedTableLaws : Prop :=
  ∀ (p : Params) (n : Nat) (a o : Real), 1 ≤ n →
    (∀ i, gen p n a o i ≤ vmax p) ∧
    (0 ≤ a → 0 ≤ o - a → o + a ≤ vmax p →
      ∀ i, (gen p n a o i : Int) = roundHalfAway (o + a * Real.sin (2 * Real.pi * i / n))) ∧
    (n % 4 = 0 →
      gen p n a o 0 = clampVmax p (roundHalfAway o) ∧ gen p n a o (n / 4) = clampVmax p (roundHalfAway (o + a)) ∧
      gen p n a o (3 * n / 4) = clampVmax p (roundHalfAway (o - a)))
end

