-- ==== Sys2Proof/Laws/Memory.lean ====
section
/-! SUPPORT. The laws of a RAM: read after write, and the canonical form. -/

namespace Sys2Proof.Machine

@[simp] theorem Memory.cellAt_nil (a : Nat) : Memory.cellAt [] a = none := rfl

theorem Memory.cellAt_cons (k : Nat) (v : BitVec 16) (m : Memory) (a : Nat) :
    Memory.cellAt ((k, v) :: m) a = if k = a then some v else Memory.cellAt m a := rfl

/-- The word just written reads back. -/
@[simp] theorem Memory.cellAt_store_self (m : Memory) (a : Nat) (v : BitVec 16) :
    Memory.cellAt (Memory.store m a v) a = some v := by
  induction m with
  | nil => simp [Memory.store, Memory.cellAt]
  | cons c m ih =>
    obtain ⟨k, w⟩ := c
    simp only [Memory.store]
    split
    · simp [Memory.cellAt]
    · split
      · simp [Memory.cellAt]
      · rename_i h
        simp only [Memory.cellAt, ih, if_neg (Ne.symm h)]

/-- Every other word reads as before. -/
theorem Memory.cellAt_store_ne (m : Memory) {a b : Nat} (v : BitVec 16) (h : b ≠ a) :
    Memory.cellAt (Memory.store m a v) b = Memory.cellAt m b := by
  induction m with
  | nil => simp [Memory.store, Memory.cellAt, h.symm]
  | cons c m ih =>
    obtain ⟨k, w⟩ := c
    simp only [Memory.store]
    split
    · simp [Memory.cellAt, h.symm]
    · split
      · rename_i h2
        subst h2
        simp [Memory.cellAt, h.symm]
      · simp only [Memory.cellAt, ih]

/-- A read after a write, in one equation. -/
theorem Memory.cellAt_store (m : Memory) (a b : Nat) (v : BitVec 16) :
    Memory.cellAt (Memory.store m a v) b = if b = a then some v else Memory.cellAt m b := by
  by_cases h : b = a
  · simp [h]
  · simp [h, Memory.cellAt_store_ne m v h]

/-- The cells after a write: the written one, and cells that were there at other addresses. -/
theorem Memory.mem_store {m : Memory} {a : Nat} {v : BitVec 16} {c : MemCell} (h : c ∈ Memory.store m a v) :
    c = (a, v) ∨ c ∈ m := by
  induction m with
  | nil => simpa [Memory.store] using h
  | cons d m ih =>
    obtain ⟨k, w⟩ := d
    simp only [Memory.store] at h
    split at h
    · simpa using h
    · split at h
      · rcases List.mem_cons.mp h with h | h
        · exact .inl h
        · exact .inr (List.mem_cons_of_mem _ h)
      · rcases List.mem_cons.mp h with h | h
        · exact .inr (by simp [h])
        · rcases ih h with h | h
          · exact .inl h
          · exact .inr (List.mem_cons_of_mem _ h)

/-- A write keeps the canonical form. -/
theorem Memory.wf_store {m : Memory} (a : Nat) (v : BitVec 16) (h : Memory.wf m) : Memory.wf (Memory.store m a v) := by
  induction m with
  | nil => simp [Memory.store, Memory.wf]
  | cons c m ih =>
    obtain ⟨k, w⟩ := c
    obtain ⟨hk, hm⟩ := List.pairwise_cons.mp h
    simp only [Memory.store]
    split
    · rename_i h1
      refine List.pairwise_cons.mpr ⟨fun d hd => ?_, h⟩
      rcases List.mem_cons.mp hd with rfl | hd
      · exact h1
      · exact h1.trans (hk d hd)
    · split
      · rename_i h2
        subst h2
        exact List.pairwise_cons.mpr ⟨hk, hm⟩
      · rename_i h1 h2
        refine List.pairwise_cons.mpr ⟨fun d hd => ?_, ih hm⟩
        rcases Memory.mem_store hd with rfl | hd
        · show k < a; omega
        · exact hk d hd

/-- Memory right after reset has the canonical form. -/
theorem reset_rams_wf : Memory.wf State.reset.rbMem ∧ Memory.wf State.reset.tblMem := by decide

/-- A cell that reads as written is one of the list. -/
theorem Memory.mem_of_cellAt {m : Memory} {a : Nat} {v : BitVec 16} (h : Memory.cellAt m a = some v) : (a, v) ∈ m := by
  induction m with
  | nil => simp at h
  | cons c m ih =>
    obtain ⟨k, w⟩ := c
    simp only [Memory.cellAt] at h
    split at h
    · rename_i hk
      simp_all
    · exact List.mem_cons_of_mem _ (ih h)

/-- `MemRead(RBM, i)` after a push: the pushed sample in its slot, every other slot as before. -/
theorem rbRead_rbPush (s : State) (d : Sample) (i : Nat) :
    rbRead (rbPush s d) i = if i = slotOf s.cfg s.wp then truncTo s.cfg.sampleW d else rbRead s i := by
  unfold rbRead rbPush
  simp only [Memory.cellAt_store]
  split <;> rfl

end Sys2Proof.Machine
end

