-- ==== Sys2Proof/Laws/State.lean ====
section
/-! SUPPORT. One lemma per field per shared update: what each operation writes, and that it leaves the rest. With these no proof
unfolds a record update. -/

namespace Sys2Proof.Machine

/-! ## `State.setRdata` -/

@[simp] theorem State.setRdata_cfg (s : State) (v : Word) : (s.setRdata v).cfg = s.cfg := rfl
@[simp] theorem State.setRdata_rbMem (s : State) (v : Word) : (s.setRdata v).rbMem = s.rbMem := rfl
@[simp] theorem State.setRdata_wp (s : State) (v : Word) : (s.setRdata v).wp = s.wp := rfl
@[simp] theorem State.setRdata_rp (s : State) (v : Word) : (s.setRdata v).rp = s.rp := rfl
@[simp] theorem State.setRdata_ovfCnt (s : State) (v : Word) : (s.setRdata v).ovfCnt = s.ovfCnt := rfl
@[simp] theorem State.setRdata_acqRun (s : State) (v : Word) : (s.setRdata v).acqRun = s.acqRun := rfl
@[simp] theorem State.setRdata_acqBusy (s : State) (v : Word) : (s.setRdata v).acqBusy = s.acqBusy := rfl
@[simp] theorem State.setRdata_cpBase (s : State) (v : Word) : (s.setRdata v).cpBase = s.cpBase := rfl
@[simp] theorem State.setRdata_cpLen (s : State) (v : Word) : (s.setRdata v).cpLen = s.cpLen := rfl
@[simp] theorem State.setRdata_cpIdx (s : State) (v : Word) : (s.setRdata v).cpIdx = s.cpIdx := rfl
@[simp] theorem State.setRdata_ackQ (s : State) (v : Word) : (s.setRdata v).ackQ = s.ackQ := rfl
@[simp] theorem State.setRdata_acqChan (s : State) (v : Word) : (s.setRdata v).acqChan = s.acqChan := rfl
@[simp] theorem State.setRdata_acqRate (s : State) (v : Word) : (s.setRdata v).acqRate = s.acqRate := rfl
@[simp] theorem State.setRdata_acqBlk (s : State) (v : Word) : (s.setRdata v).acqBlk = s.acqBlk := rfl
@[simp] theorem State.setRdata_acqBlks (s : State) (v : Word) : (s.setRdata v).acqBlks = s.acqBlks := rfl
@[simp] theorem State.setRdata_acqSamples (s : State) (v : Word) : (s.setRdata v).acqSamples = s.acqSamples := rfl
@[simp] theorem State.setRdata_synSt (s : State) (v : Word) : (s.setRdata v).synSt = s.synSt := rfl
@[simp] theorem State.setRdata_tblMem (s : State) (v : Word) : (s.setRdata v).tblMem = s.tblMem := rfl
@[simp] theorem State.setRdata_tblLen (s : State) (v : Word) : (s.setRdata v).tblLen = s.tblLen := rfl
@[simp] theorem State.setRdata_tblAddr (s : State) (v : Word) : (s.setRdata v).tblAddr = s.tblAddr := rfl
@[simp] theorem State.setRdata_synChan (s : State) (v : Word) : (s.setRdata v).synChan = s.synChan := rfl
@[simp] theorem State.setRdata_synPeriod (s : State) (v : Word) : (s.setRdata v).synPeriod = s.synPeriod := rfl
@[simp] theorem State.setRdata_pcnt (s : State) (v : Word) : (s.setRdata v).pcnt = s.pcnt := rfl
@[simp] theorem State.setRdata_idx (s : State) (v : Word) : (s.setRdata v).idx = s.idx := rfl
@[simp] theorem State.setRdata_synFires (s : State) (v : Word) : (s.setRdata v).synFires = s.synFires := rfl
@[simp] theorem State.setRdata_dacValid (s : State) (v : Word) : (s.setRdata v).dacValid = s.dacValid := rfl
@[simp] theorem State.setRdata_dacData (s : State) (v : Word) : (s.setRdata v).dacData = s.dacData := rfl
@[simp] theorem State.setRdata_lastRes (s : State) (v : Word) : (s.setRdata v).lastRes = s.lastRes := rfl
@[simp] theorem State.setRdata_fault (s : State) (v : Word) : (s.setRdata v).fault = s.fault := rfl
@[simp] theorem State.setRdata_env (s : State) (v : Word) : (s.setRdata v).env = s.env := rfl
@[simp] theorem State.setRdata_inp (s : State) (v : Word) : (s.setRdata v).inp = s.inp := rfl
@[simp] theorem State.setRdata_out (s : State) (v : Word) : (s.setRdata v).out = { s.out with hRdata := v } := rfl
@[simp] theorem State.setRdata_cycle (s : State) (v : Word) : (s.setRdata v).cycle = s.cycle := rfl

/-! ## `State.setRes` -/

@[simp] theorem State.setRes_cfg (s : State) (c : ResultCode) : (s.setRes c).cfg = s.cfg := rfl
@[simp] theorem State.setRes_rbMem (s : State) (c : ResultCode) : (s.setRes c).rbMem = s.rbMem := rfl
@[simp] theorem State.setRes_wp (s : State) (c : ResultCode) : (s.setRes c).wp = s.wp := rfl
@[simp] theorem State.setRes_rp (s : State) (c : ResultCode) : (s.setRes c).rp = s.rp := rfl
@[simp] theorem State.setRes_ovfCnt (s : State) (c : ResultCode) : (s.setRes c).ovfCnt = s.ovfCnt := rfl
@[simp] theorem State.setRes_acqRun (s : State) (c : ResultCode) : (s.setRes c).acqRun = s.acqRun := rfl
@[simp] theorem State.setRes_acqBusy (s : State) (c : ResultCode) : (s.setRes c).acqBusy = s.acqBusy := rfl
@[simp] theorem State.setRes_cpBase (s : State) (c : ResultCode) : (s.setRes c).cpBase = s.cpBase := rfl
@[simp] theorem State.setRes_cpLen (s : State) (c : ResultCode) : (s.setRes c).cpLen = s.cpLen := rfl
@[simp] theorem State.setRes_cpIdx (s : State) (c : ResultCode) : (s.setRes c).cpIdx = s.cpIdx := rfl
@[simp] theorem State.setRes_ackQ (s : State) (c : ResultCode) : (s.setRes c).ackQ = s.ackQ := rfl
@[simp] theorem State.setRes_acqChan (s : State) (c : ResultCode) : (s.setRes c).acqChan = s.acqChan := rfl
@[simp] theorem State.setRes_acqRate (s : State) (c : ResultCode) : (s.setRes c).acqRate = s.acqRate := rfl
@[simp] theorem State.setRes_acqBlk (s : State) (c : ResultCode) : (s.setRes c).acqBlk = s.acqBlk := rfl
@[simp] theorem State.setRes_acqBlks (s : State) (c : ResultCode) : (s.setRes c).acqBlks = s.acqBlks := rfl
@[simp] theorem State.setRes_acqSamples (s : State) (c : ResultCode) : (s.setRes c).acqSamples = s.acqSamples := rfl
@[simp] theorem State.setRes_synSt (s : State) (c : ResultCode) : (s.setRes c).synSt = s.synSt := rfl
@[simp] theorem State.setRes_tblMem (s : State) (c : ResultCode) : (s.setRes c).tblMem = s.tblMem := rfl
@[simp] theorem State.setRes_tblLen (s : State) (c : ResultCode) : (s.setRes c).tblLen = s.tblLen := rfl
@[simp] theorem State.setRes_tblAddr (s : State) (c : ResultCode) : (s.setRes c).tblAddr = s.tblAddr := rfl
@[simp] theorem State.setRes_synChan (s : State) (c : ResultCode) : (s.setRes c).synChan = s.synChan := rfl
@[simp] theorem State.setRes_synPeriod (s : State) (c : ResultCode) : (s.setRes c).synPeriod = s.synPeriod := rfl
@[simp] theorem State.setRes_pcnt (s : State) (c : ResultCode) : (s.setRes c).pcnt = s.pcnt := rfl
@[simp] theorem State.setRes_idx (s : State) (c : ResultCode) : (s.setRes c).idx = s.idx := rfl
@[simp] theorem State.setRes_synFires (s : State) (c : ResultCode) : (s.setRes c).synFires = s.synFires := rfl
@[simp] theorem State.setRes_dacValid (s : State) (c : ResultCode) : (s.setRes c).dacValid = s.dacValid := rfl
@[simp] theorem State.setRes_dacData (s : State) (c : ResultCode) : (s.setRes c).dacData = s.dacData := rfl
@[simp] theorem State.setRes_lastRes (s : State) (c : ResultCode) : (s.setRes c).lastRes = c := rfl
@[simp] theorem State.setRes_fault (s : State) (c : ResultCode) : (s.setRes c).fault = s.fault := rfl
@[simp] theorem State.setRes_env (s : State) (c : ResultCode) : (s.setRes c).env = s.env := rfl
@[simp] theorem State.setRes_inp (s : State) (c : ResultCode) : (s.setRes c).inp = s.inp := rfl
@[simp] theorem State.setRes_out (s : State) (c : ResultCode) : (s.setRes c).out = s.out := rfl
@[simp] theorem State.setRes_cycle (s : State) (c : ResultCode) : (s.setRes c).cycle = s.cycle := rfl

/-! ## `State.raise` -/

@[simp] theorem State.raise_cfg (s : State) (b : FaultBits) : (s.raise b).cfg = s.cfg := rfl
@[simp] theorem State.raise_rbMem (s : State) (b : FaultBits) : (s.raise b).rbMem = s.rbMem := rfl
@[simp] theorem State.raise_wp (s : State) (b : FaultBits) : (s.raise b).wp = s.wp := rfl
@[simp] theorem State.raise_rp (s : State) (b : FaultBits) : (s.raise b).rp = s.rp := rfl
@[simp] theorem State.raise_ovfCnt (s : State) (b : FaultBits) : (s.raise b).ovfCnt = s.ovfCnt := rfl
@[simp] theorem State.raise_acqRun (s : State) (b : FaultBits) : (s.raise b).acqRun = s.acqRun := rfl
@[simp] theorem State.raise_acqBusy (s : State) (b : FaultBits) : (s.raise b).acqBusy = s.acqBusy := rfl
@[simp] theorem State.raise_cpBase (s : State) (b : FaultBits) : (s.raise b).cpBase = s.cpBase := rfl
@[simp] theorem State.raise_cpLen (s : State) (b : FaultBits) : (s.raise b).cpLen = s.cpLen := rfl
@[simp] theorem State.raise_cpIdx (s : State) (b : FaultBits) : (s.raise b).cpIdx = s.cpIdx := rfl
@[simp] theorem State.raise_ackQ (s : State) (b : FaultBits) : (s.raise b).ackQ = s.ackQ := rfl
@[simp] theorem State.raise_acqChan (s : State) (b : FaultBits) : (s.raise b).acqChan = s.acqChan := rfl
@[simp] theorem State.raise_acqRate (s : State) (b : FaultBits) : (s.raise b).acqRate = s.acqRate := rfl
@[simp] theorem State.raise_acqBlk (s : State) (b : FaultBits) : (s.raise b).acqBlk = s.acqBlk := rfl
@[simp] theorem State.raise_acqBlks (s : State) (b : FaultBits) : (s.raise b).acqBlks = s.acqBlks := rfl
@[simp] theorem State.raise_acqSamples (s : State) (b : FaultBits) : (s.raise b).acqSamples = s.acqSamples := rfl
@[simp] theorem State.raise_synSt (s : State) (b : FaultBits) : (s.raise b).synSt = s.synSt := rfl
@[simp] theorem State.raise_tblMem (s : State) (b : FaultBits) : (s.raise b).tblMem = s.tblMem := rfl
@[simp] theorem State.raise_tblLen (s : State) (b : FaultBits) : (s.raise b).tblLen = s.tblLen := rfl
@[simp] theorem State.raise_tblAddr (s : State) (b : FaultBits) : (s.raise b).tblAddr = s.tblAddr := rfl
@[simp] theorem State.raise_synChan (s : State) (b : FaultBits) : (s.raise b).synChan = s.synChan := rfl
@[simp] theorem State.raise_synPeriod (s : State) (b : FaultBits) : (s.raise b).synPeriod = s.synPeriod := rfl
@[simp] theorem State.raise_pcnt (s : State) (b : FaultBits) : (s.raise b).pcnt = s.pcnt := rfl
@[simp] theorem State.raise_idx (s : State) (b : FaultBits) : (s.raise b).idx = s.idx := rfl
@[simp] theorem State.raise_synFires (s : State) (b : FaultBits) : (s.raise b).synFires = s.synFires := rfl
@[simp] theorem State.raise_dacValid (s : State) (b : FaultBits) : (s.raise b).dacValid = s.dacValid := rfl
@[simp] theorem State.raise_dacData (s : State) (b : FaultBits) : (s.raise b).dacData = s.dacData := rfl
@[simp] theorem State.raise_lastRes (s : State) (b : FaultBits) : (s.raise b).lastRes = s.lastRes := rfl
@[simp] theorem State.raise_fault (s : State) (b : FaultBits) : (s.raise b).fault = s.fault ||| b := rfl
@[simp] theorem State.raise_env (s : State) (b : FaultBits) : (s.raise b).env = s.env := rfl
@[simp] theorem State.raise_inp (s : State) (b : FaultBits) : (s.raise b).inp = s.inp := rfl
@[simp] theorem State.raise_out (s : State) (b : FaultBits) : (s.raise b).out = s.out := rfl
@[simp] theorem State.raise_cycle (s : State) (b : FaultBits) : (s.raise b).cycle = s.cycle := rfl

/-! ## `rbPop` -/

@[simp] theorem rbPop_cfg (s : State) : (rbPop s).cfg = s.cfg := rfl
@[simp] theorem rbPop_rbMem (s : State) : (rbPop s).rbMem = s.rbMem := rfl
@[simp] theorem rbPop_wp (s : State) : (rbPop s).wp = s.wp := rfl
@[simp] theorem rbPop_rp (s : State) : (rbPop s).rp = nextPtr s.cfg s.rp := rfl
@[simp] theorem rbPop_ovfCnt (s : State) : (rbPop s).ovfCnt = s.ovfCnt := rfl
@[simp] theorem rbPop_acqRun (s : State) : (rbPop s).acqRun = s.acqRun := rfl
@[simp] theorem rbPop_acqBusy (s : State) : (rbPop s).acqBusy = s.acqBusy := rfl
@[simp] theorem rbPop_cpBase (s : State) : (rbPop s).cpBase = s.cpBase := rfl
@[simp] theorem rbPop_cpLen (s : State) : (rbPop s).cpLen = s.cpLen := rfl
@[simp] theorem rbPop_cpIdx (s : State) : (rbPop s).cpIdx = s.cpIdx := rfl
@[simp] theorem rbPop_ackQ (s : State) : (rbPop s).ackQ = s.ackQ := rfl
@[simp] theorem rbPop_acqChan (s : State) : (rbPop s).acqChan = s.acqChan := rfl
@[simp] theorem rbPop_acqRate (s : State) : (rbPop s).acqRate = s.acqRate := rfl
@[simp] theorem rbPop_acqBlk (s : State) : (rbPop s).acqBlk = s.acqBlk := rfl
@[simp] theorem rbPop_acqBlks (s : State) : (rbPop s).acqBlks = s.acqBlks := rfl
@[simp] theorem rbPop_acqSamples (s : State) : (rbPop s).acqSamples = s.acqSamples := rfl
@[simp] theorem rbPop_synSt (s : State) : (rbPop s).synSt = s.synSt := rfl
@[simp] theorem rbPop_tblMem (s : State) : (rbPop s).tblMem = s.tblMem := rfl
@[simp] theorem rbPop_tblLen (s : State) : (rbPop s).tblLen = s.tblLen := rfl
@[simp] theorem rbPop_tblAddr (s : State) : (rbPop s).tblAddr = s.tblAddr := rfl
@[simp] theorem rbPop_synChan (s : State) : (rbPop s).synChan = s.synChan := rfl
@[simp] theorem rbPop_synPeriod (s : State) : (rbPop s).synPeriod = s.synPeriod := rfl
@[simp] theorem rbPop_pcnt (s : State) : (rbPop s).pcnt = s.pcnt := rfl
@[simp] theorem rbPop_idx (s : State) : (rbPop s).idx = s.idx := rfl
@[simp] theorem rbPop_synFires (s : State) : (rbPop s).synFires = s.synFires := rfl
@[simp] theorem rbPop_dacValid (s : State) : (rbPop s).dacValid = s.dacValid := rfl
@[simp] theorem rbPop_dacData (s : State) : (rbPop s).dacData = s.dacData := rfl
@[simp] theorem rbPop_lastRes (s : State) : (rbPop s).lastRes = s.lastRes := rfl
@[simp] theorem rbPop_fault (s : State) : (rbPop s).fault = s.fault := rfl
@[simp] theorem rbPop_env (s : State) : (rbPop s).env = s.env := rfl
@[simp] theorem rbPop_inp (s : State) : (rbPop s).inp = s.inp := rfl
@[simp] theorem rbPop_out (s : State) : (rbPop s).out = s.out := rfl
@[simp] theorem rbPop_cycle (s : State) : (rbPop s).cycle = s.cycle := rfl

/-! ## `rbPush` -/

@[simp] theorem rbPush_cfg (s : State) (d : Sample) : (rbPush s d).cfg = s.cfg := rfl
@[simp] theorem rbPush_rbMem (s : State) (d : Sample) : (rbPush s d).rbMem = s.rbMem.store (slotOf s.cfg s.wp) (truncTo s.cfg.sampleW d) := rfl
@[simp] theorem rbPush_wp (s : State) (d : Sample) : (rbPush s d).wp = nextPtr s.cfg s.wp := rfl
@[simp] theorem rbPush_rp (s : State) (d : Sample) : (rbPush s d).rp = if rbFull s then nextPtr s.cfg s.rp else s.rp := rfl
@[simp] theorem rbPush_ovfCnt (s : State) (d : Sample) : (rbPush s d).ovfCnt = if rbFull s then s.ovfCnt + 1 else s.ovfCnt := rfl
@[simp] theorem rbPush_acqRun (s : State) (d : Sample) : (rbPush s d).acqRun = s.acqRun := rfl
@[simp] theorem rbPush_acqBusy (s : State) (d : Sample) : (rbPush s d).acqBusy = s.acqBusy := rfl
@[simp] theorem rbPush_cpBase (s : State) (d : Sample) : (rbPush s d).cpBase = s.cpBase := rfl
@[simp] theorem rbPush_cpLen (s : State) (d : Sample) : (rbPush s d).cpLen = s.cpLen := rfl
@[simp] theorem rbPush_cpIdx (s : State) (d : Sample) : (rbPush s d).cpIdx = s.cpIdx := rfl
@[simp] theorem rbPush_ackQ (s : State) (d : Sample) : (rbPush s d).ackQ = s.ackQ := rfl
@[simp] theorem rbPush_acqChan (s : State) (d : Sample) : (rbPush s d).acqChan = s.acqChan := rfl
@[simp] theorem rbPush_acqRate (s : State) (d : Sample) : (rbPush s d).acqRate = s.acqRate := rfl
@[simp] theorem rbPush_acqBlk (s : State) (d : Sample) : (rbPush s d).acqBlk = s.acqBlk := rfl
@[simp] theorem rbPush_acqBlks (s : State) (d : Sample) : (rbPush s d).acqBlks = s.acqBlks := rfl
@[simp] theorem rbPush_acqSamples (s : State) (d : Sample) : (rbPush s d).acqSamples = s.acqSamples := rfl
@[simp] theorem rbPush_synSt (s : State) (d : Sample) : (rbPush s d).synSt = s.synSt := rfl
@[simp] theorem rbPush_tblMem (s : State) (d : Sample) : (rbPush s d).tblMem = s.tblMem := rfl
@[simp] theorem rbPush_tblLen (s : State) (d : Sample) : (rbPush s d).tblLen = s.tblLen := rfl
@[simp] theorem rbPush_tblAddr (s : State) (d : Sample) : (rbPush s d).tblAddr = s.tblAddr := rfl
@[simp] theorem rbPush_synChan (s : State) (d : Sample) : (rbPush s d).synChan = s.synChan := rfl
@[simp] theorem rbPush_synPeriod (s : State) (d : Sample) : (rbPush s d).synPeriod = s.synPeriod := rfl
@[simp] theorem rbPush_pcnt (s : State) (d : Sample) : (rbPush s d).pcnt = s.pcnt := rfl
@[simp] theorem rbPush_idx (s : State) (d : Sample) : (rbPush s d).idx = s.idx := rfl
@[simp] theorem rbPush_synFires (s : State) (d : Sample) : (rbPush s d).synFires = s.synFires := rfl
@[simp] theorem rbPush_dacValid (s : State) (d : Sample) : (rbPush s d).dacValid = s.dacValid := rfl
@[simp] theorem rbPush_dacData (s : State) (d : Sample) : (rbPush s d).dacData = s.dacData := rfl
@[simp] theorem rbPush_lastRes (s : State) (d : Sample) : (rbPush s d).lastRes = s.lastRes := rfl
@[simp] theorem rbPush_fault (s : State) (d : Sample) : (rbPush s d).fault = s.fault := rfl
@[simp] theorem rbPush_env (s : State) (d : Sample) : (rbPush s d).env = s.env := rfl
@[simp] theorem rbPush_inp (s : State) (d : Sample) : (rbPush s d).inp = s.inp := rfl
@[simp] theorem rbPush_out (s : State) (d : Sample) : (rbPush s d).out = s.out := rfl
@[simp] theorem rbPush_cycle (s : State) (d : Sample) : (rbPush s d).cycle = s.cycle := rfl

/-! ## `tick` -/

@[simp] theorem tick_cfg (s : State) : (tick s).cfg = s.cfg := rfl
@[simp] theorem tick_rbMem (s : State) : (tick s).rbMem = s.rbMem := rfl
@[simp] theorem tick_wp (s : State) : (tick s).wp = s.wp := rfl
@[simp] theorem tick_rp (s : State) : (tick s).rp = s.rp := rfl
@[simp] theorem tick_ovfCnt (s : State) : (tick s).ovfCnt = s.ovfCnt := rfl
@[simp] theorem tick_acqRun (s : State) : (tick s).acqRun = s.acqRun := rfl
@[simp] theorem tick_acqBusy (s : State) : (tick s).acqBusy = s.acqBusy := rfl
@[simp] theorem tick_cpBase (s : State) : (tick s).cpBase = s.cpBase := rfl
@[simp] theorem tick_cpLen (s : State) : (tick s).cpLen = s.cpLen := rfl
@[simp] theorem tick_cpIdx (s : State) : (tick s).cpIdx = s.cpIdx := rfl
@[simp] theorem tick_ackQ (s : State) : (tick s).ackQ = false := rfl
@[simp] theorem tick_acqChan (s : State) : (tick s).acqChan = s.acqChan := rfl
@[simp] theorem tick_acqRate (s : State) : (tick s).acqRate = s.acqRate := rfl
@[simp] theorem tick_acqBlk (s : State) : (tick s).acqBlk = s.acqBlk := rfl
@[simp] theorem tick_acqBlks (s : State) : (tick s).acqBlks = s.acqBlks := rfl
@[simp] theorem tick_acqSamples (s : State) : (tick s).acqSamples = s.acqSamples := rfl
@[simp] theorem tick_synSt (s : State) : (tick s).synSt = s.synSt := rfl
@[simp] theorem tick_tblMem (s : State) : (tick s).tblMem = s.tblMem := rfl
@[simp] theorem tick_tblLen (s : State) : (tick s).tblLen = s.tblLen := rfl
@[simp] theorem tick_tblAddr (s : State) : (tick s).tblAddr = s.tblAddr := rfl
@[simp] theorem tick_synChan (s : State) : (tick s).synChan = s.synChan := rfl
@[simp] theorem tick_synPeriod (s : State) : (tick s).synPeriod = s.synPeriod := rfl
@[simp] theorem tick_pcnt (s : State) : (tick s).pcnt = if s.synSt = .running ∧ s.pcnt ≠ 0 then s.pcnt - 1 else s.pcnt := rfl
@[simp] theorem tick_idx (s : State) : (tick s).idx = s.idx := rfl
@[simp] theorem tick_synFires (s : State) : (tick s).synFires = s.synFires := rfl
@[simp] theorem tick_dacValid (s : State) : (tick s).dacValid = s.dacValid := rfl
@[simp] theorem tick_dacData (s : State) : (tick s).dacData = s.dacData := rfl
@[simp] theorem tick_lastRes (s : State) : (tick s).lastRes = s.lastRes := rfl
@[simp] theorem tick_fault (s : State) : (tick s).fault = s.fault := rfl
@[simp] theorem tick_env (s : State) : (tick s).env = s.env := rfl
@[simp] theorem tick_inp (s : State) : (tick s).inp = s.inp := rfl
@[simp] theorem tick_out (s : State) : (tick s).out = s.out := rfl
@[simp] theorem tick_cycle (s : State) : (tick s).cycle = s.cycle := rfl

/-! ## `beginCycle` -/

@[simp] theorem beginCycle_cfg (s : State) : (beginCycle s).cfg = s.cfg := rfl
@[simp] theorem beginCycle_rbMem (s : State) : (beginCycle s).rbMem = s.rbMem := rfl
@[simp] theorem beginCycle_wp (s : State) : (beginCycle s).wp = s.wp := rfl
@[simp] theorem beginCycle_rp (s : State) : (beginCycle s).rp = s.rp := rfl
@[simp] theorem beginCycle_ovfCnt (s : State) : (beginCycle s).ovfCnt = s.ovfCnt := rfl
@[simp] theorem beginCycle_acqRun (s : State) : (beginCycle s).acqRun = s.acqRun := rfl
@[simp] theorem beginCycle_acqBusy (s : State) : (beginCycle s).acqBusy = s.acqBusy := rfl
@[simp] theorem beginCycle_cpBase (s : State) : (beginCycle s).cpBase = s.cpBase := rfl
@[simp] theorem beginCycle_cpLen (s : State) : (beginCycle s).cpLen = s.cpLen := rfl
@[simp] theorem beginCycle_cpIdx (s : State) : (beginCycle s).cpIdx = s.cpIdx := rfl
@[simp] theorem beginCycle_ackQ (s : State) : (beginCycle s).ackQ = s.ackQ := rfl
@[simp] theorem beginCycle_acqChan (s : State) : (beginCycle s).acqChan = s.acqChan := rfl
@[simp] theorem beginCycle_acqRate (s : State) : (beginCycle s).acqRate = s.acqRate := rfl
@[simp] theorem beginCycle_acqBlk (s : State) : (beginCycle s).acqBlk = s.acqBlk := rfl
@[simp] theorem beginCycle_acqBlks (s : State) : (beginCycle s).acqBlks = s.acqBlks := rfl
@[simp] theorem beginCycle_acqSamples (s : State) : (beginCycle s).acqSamples = s.acqSamples := rfl
@[simp] theorem beginCycle_synSt (s : State) : (beginCycle s).synSt = s.synSt := rfl
@[simp] theorem beginCycle_tblMem (s : State) : (beginCycle s).tblMem = s.tblMem := rfl
@[simp] theorem beginCycle_tblLen (s : State) : (beginCycle s).tblLen = s.tblLen := rfl
@[simp] theorem beginCycle_tblAddr (s : State) : (beginCycle s).tblAddr = s.tblAddr := rfl
@[simp] theorem beginCycle_synChan (s : State) : (beginCycle s).synChan = s.synChan := rfl
@[simp] theorem beginCycle_synPeriod (s : State) : (beginCycle s).synPeriod = s.synPeriod := rfl
@[simp] theorem beginCycle_pcnt (s : State) : (beginCycle s).pcnt = s.pcnt := rfl
@[simp] theorem beginCycle_idx (s : State) : (beginCycle s).idx = s.idx := rfl
@[simp] theorem beginCycle_synFires (s : State) : (beginCycle s).synFires = s.synFires := rfl
@[simp] theorem beginCycle_dacValid (s : State) : (beginCycle s).dacValid = s.dacValid := rfl
@[simp] theorem beginCycle_dacData (s : State) : (beginCycle s).dacData = s.dacData := rfl
@[simp] theorem beginCycle_lastRes (s : State) : (beginCycle s).lastRes = s.lastRes := rfl
@[simp] theorem beginCycle_fault (s : State) : (beginCycle s).fault = s.fault := rfl
@[simp] theorem beginCycle_env (s : State) : (beginCycle s).env = s.env.tail := rfl
@[simp] theorem beginCycle_inp (s : State) : (beginCycle s).inp = nextInputs s := rfl
@[simp] theorem beginCycle_out (s : State) : (beginCycle s).out = registeredOutputs s := rfl
@[simp] theorem beginCycle_cycle (s : State) : (beginCycle s).cycle = s.cycle + 1 := rfl

/-! ## `acceptFiring` -/

@[simp] theorem acceptFiring_cfg (s : State) : (acceptFiring s).cfg = s.cfg := rfl
@[simp] theorem acceptFiring_rbMem (s : State) : (acceptFiring s).rbMem = s.rbMem := rfl
@[simp] theorem acceptFiring_wp (s : State) : (acceptFiring s).wp = s.wp := rfl
@[simp] theorem acceptFiring_rp (s : State) : (acceptFiring s).rp = s.rp := rfl
@[simp] theorem acceptFiring_ovfCnt (s : State) : (acceptFiring s).ovfCnt = s.ovfCnt := rfl
@[simp] theorem acceptFiring_acqRun (s : State) : (acceptFiring s).acqRun = s.acqRun := rfl
@[simp] theorem acceptFiring_acqBusy (s : State) : (acceptFiring s).acqBusy = s.acqBusy := rfl
@[simp] theorem acceptFiring_cpBase (s : State) : (acceptFiring s).cpBase = s.cpBase := rfl
@[simp] theorem acceptFiring_cpLen (s : State) : (acceptFiring s).cpLen = s.cpLen := rfl
@[simp] theorem acceptFiring_cpIdx (s : State) : (acceptFiring s).cpIdx = s.cpIdx := rfl
@[simp] theorem acceptFiring_ackQ (s : State) : (acceptFiring s).ackQ = s.ackQ := rfl
@[simp] theorem acceptFiring_acqChan (s : State) : (acceptFiring s).acqChan = s.acqChan := rfl
@[simp] theorem acceptFiring_acqRate (s : State) : (acceptFiring s).acqRate = s.acqRate := rfl
@[simp] theorem acceptFiring_acqBlk (s : State) : (acceptFiring s).acqBlk = s.acqBlk := rfl
@[simp] theorem acceptFiring_acqBlks (s : State) : (acceptFiring s).acqBlks = s.acqBlks := rfl
@[simp] theorem acceptFiring_acqSamples (s : State) : (acceptFiring s).acqSamples = s.acqSamples := rfl
@[simp] theorem acceptFiring_synSt (s : State) : (acceptFiring s).synSt = s.synSt := rfl
@[simp] theorem acceptFiring_tblMem (s : State) : (acceptFiring s).tblMem = s.tblMem := rfl
@[simp] theorem acceptFiring_tblLen (s : State) : (acceptFiring s).tblLen = s.tblLen := rfl
@[simp] theorem acceptFiring_tblAddr (s : State) : (acceptFiring s).tblAddr = s.tblAddr := rfl
@[simp] theorem acceptFiring_synChan (s : State) : (acceptFiring s).synChan = s.synChan := rfl
@[simp] theorem acceptFiring_synPeriod (s : State) : (acceptFiring s).synPeriod = s.synPeriod := rfl
@[simp] theorem acceptFiring_pcnt (s : State) : (acceptFiring s).pcnt = s.pcnt := rfl
@[simp] theorem acceptFiring_idx (s : State) : (acceptFiring s).idx = nextIdx s := rfl
@[simp] theorem acceptFiring_synFires (s : State) : (acceptFiring s).synFires = s.synFires + 1 := rfl
@[simp] theorem acceptFiring_dacValid (s : State) : (acceptFiring s).dacValid = true := rfl
@[simp] theorem acceptFiring_dacData (s : State) : (acceptFiring s).dacData = tblRead s s.idx.toNat := rfl
@[simp] theorem acceptFiring_lastRes (s : State) : (acceptFiring s).lastRes = s.lastRes := rfl
@[simp] theorem acceptFiring_fault (s : State) : (acceptFiring s).fault = s.fault := rfl
@[simp] theorem acceptFiring_env (s : State) : (acceptFiring s).env = s.env := rfl
@[simp] theorem acceptFiring_inp (s : State) : (acceptFiring s).inp = s.inp := rfl
@[simp] theorem acceptFiring_out (s : State) : (acceptFiring s).out = s.out := rfl
@[simp] theorem acceptFiring_cycle (s : State) : (acceptFiring s).cycle = s.cycle := rfl

/-! ## `checkDesync` -/

@[simp] theorem checkDesync_cfg (len : Len) (s : State) : (checkDesync len s).cfg = s.cfg := by unfold checkDesync; split <;> rfl
@[simp] theorem checkDesync_rbMem (len : Len) (s : State) : (checkDesync len s).rbMem = s.rbMem := by unfold checkDesync; split <;> rfl
@[simp] theorem checkDesync_wp (len : Len) (s : State) : (checkDesync len s).wp = s.wp := by unfold checkDesync; split <;> rfl
@[simp] theorem checkDesync_rp (len : Len) (s : State) : (checkDesync len s).rp = s.rp := by unfold checkDesync; split <;> rfl
@[simp] theorem checkDesync_ovfCnt (len : Len) (s : State) : (checkDesync len s).ovfCnt = s.ovfCnt := by unfold checkDesync; split <;> rfl
@[simp] theorem checkDesync_acqRun (len : Len) (s : State) : (checkDesync len s).acqRun = s.acqRun := by unfold checkDesync; split <;> rfl
@[simp] theorem checkDesync_acqBusy (len : Len) (s : State) : (checkDesync len s).acqBusy = s.acqBusy := by unfold checkDesync; split <;> rfl
@[simp] theorem checkDesync_cpBase (len : Len) (s : State) : (checkDesync len s).cpBase = s.cpBase := by unfold checkDesync; split <;> rfl
@[simp] theorem checkDesync_cpLen (len : Len) (s : State) : (checkDesync len s).cpLen = s.cpLen := by unfold checkDesync; split <;> rfl
@[simp] theorem checkDesync_cpIdx (len : Len) (s : State) : (checkDesync len s).cpIdx = s.cpIdx := by unfold checkDesync; split <;> rfl
@[simp] theorem checkDesync_ackQ (len : Len) (s : State) : (checkDesync len s).ackQ = s.ackQ := by unfold checkDesync; split <;> rfl
@[simp] theorem checkDesync_acqChan (len : Len) (s : State) : (checkDesync len s).acqChan = s.acqChan := by unfold checkDesync; split <;> rfl
@[simp] theorem checkDesync_acqRate (len : Len) (s : State) : (checkDesync len s).acqRate = s.acqRate := by unfold checkDesync; split <;> rfl
@[simp] theorem checkDesync_acqBlk (len : Len) (s : State) : (checkDesync len s).acqBlk = s.acqBlk := by unfold checkDesync; split <;> rfl
@[simp] theorem checkDesync_acqBlks (len : Len) (s : State) : (checkDesync len s).acqBlks = s.acqBlks := by unfold checkDesync; split <;> rfl
@[simp] theorem checkDesync_acqSamples (len : Len) (s : State) : (checkDesync len s).acqSamples = s.acqSamples := by unfold checkDesync; split <;> rfl
@[simp] theorem checkDesync_synSt (len : Len) (s : State) : (checkDesync len s).synSt = s.synSt := by unfold checkDesync; split <;> rfl
@[simp] theorem checkDesync_tblMem (len : Len) (s : State) : (checkDesync len s).tblMem = s.tblMem := by unfold checkDesync; split <;> rfl
@[simp] theorem checkDesync_tblLen (len : Len) (s : State) : (checkDesync len s).tblLen = s.tblLen := by unfold checkDesync; split <;> rfl
@[simp] theorem checkDesync_tblAddr (len : Len) (s : State) : (checkDesync len s).tblAddr = s.tblAddr := by unfold checkDesync; split <;> rfl
@[simp] theorem checkDesync_synChan (len : Len) (s : State) : (checkDesync len s).synChan = s.synChan := by unfold checkDesync; split <;> rfl
@[simp] theorem checkDesync_synPeriod (len : Len) (s : State) : (checkDesync len s).synPeriod = s.synPeriod := by unfold checkDesync; split <;> rfl
@[simp] theorem checkDesync_pcnt (len : Len) (s : State) : (checkDesync len s).pcnt = s.pcnt := by unfold checkDesync; split <;> rfl
@[simp] theorem checkDesync_idx (len : Len) (s : State) : (checkDesync len s).idx = s.idx := by unfold checkDesync; split <;> rfl
@[simp] theorem checkDesync_synFires (len : Len) (s : State) : (checkDesync len s).synFires = s.synFires := by unfold checkDesync; split <;> rfl
@[simp] theorem checkDesync_dacValid (len : Len) (s : State) : (checkDesync len s).dacValid = s.dacValid := by unfold checkDesync; split <;> rfl
@[simp] theorem checkDesync_dacData (len : Len) (s : State) : (checkDesync len s).dacData = s.dacData := by unfold checkDesync; split <;> rfl
@[simp] theorem checkDesync_lastRes (len : Len) (s : State) : (checkDesync len s).lastRes = s.lastRes := by unfold checkDesync; split <;> rfl
@[simp] theorem checkDesync_fault (len : Len) (s : State) : (checkDesync len s).fault = if len ≠ s.acqBlk then s.fault ||| acqDesync else s.fault := by unfold checkDesync; split <;> rfl
@[simp] theorem checkDesync_env (len : Len) (s : State) : (checkDesync len s).env = s.env := by unfold checkDesync; split <;> rfl
@[simp] theorem checkDesync_inp (len : Len) (s : State) : (checkDesync len s).inp = s.inp := by unfold checkDesync; split <;> rfl
@[simp] theorem checkDesync_out (len : Len) (s : State) : (checkDesync len s).out = s.out := by unfold checkDesync; split <;> rfl
@[simp] theorem checkDesync_cycle (len : Len) (s : State) : (checkDesync len s).cycle = s.cycle := by unfold checkDesync; split <;> rfl

/-! ## `acceptBlock` -/

@[simp] theorem acceptBlock_cfg (ptr : SrcAddr) (len : Len) (s : State) : (acceptBlock ptr len s).cfg = s.cfg := by unfold acceptBlock; split <;> rfl
@[simp] theorem acceptBlock_rbMem (ptr : SrcAddr) (len : Len) (s : State) : (acceptBlock ptr len s).rbMem = s.rbMem := by unfold acceptBlock; split <;> rfl
@[simp] theorem acceptBlock_wp (ptr : SrcAddr) (len : Len) (s : State) : (acceptBlock ptr len s).wp = s.wp := by unfold acceptBlock; split <;> rfl
@[simp] theorem acceptBlock_rp (ptr : SrcAddr) (len : Len) (s : State) : (acceptBlock ptr len s).rp = s.rp := by unfold acceptBlock; split <;> rfl
@[simp] theorem acceptBlock_ovfCnt (ptr : SrcAddr) (len : Len) (s : State) : (acceptBlock ptr len s).ovfCnt = s.ovfCnt := by unfold acceptBlock; split <;> rfl
@[simp] theorem acceptBlock_acqRun (ptr : SrcAddr) (len : Len) (s : State) : (acceptBlock ptr len s).acqRun = s.acqRun := by unfold acceptBlock; split <;> rfl
@[simp] theorem acceptBlock_acqBusy (ptr : SrcAddr) (len : Len) (s : State) : (acceptBlock ptr len s).acqBusy = if len = 0 then s.acqBusy else true := by unfold acceptBlock; split <;> rfl
@[simp] theorem acceptBlock_cpBase (ptr : SrcAddr) (len : Len) (s : State) : (acceptBlock ptr len s).cpBase = if len = 0 then s.cpBase else truncTo s.cfg.addrW ptr := by unfold acceptBlock; split <;> rfl
@[simp] theorem acceptBlock_cpLen (ptr : SrcAddr) (len : Len) (s : State) : (acceptBlock ptr len s).cpLen = if len = 0 then s.cpLen else len := by unfold acceptBlock; split <;> rfl
@[simp] theorem acceptBlock_cpIdx (ptr : SrcAddr) (len : Len) (s : State) : (acceptBlock ptr len s).cpIdx = if len = 0 then s.cpIdx else 0 := by unfold acceptBlock; split <;> rfl
@[simp] theorem acceptBlock_ackQ (ptr : SrcAddr) (len : Len) (s : State) : (acceptBlock ptr len s).ackQ = if len = 0 then true else s.ackQ := by unfold acceptBlock; split <;> rfl
@[simp] theorem acceptBlock_acqChan (ptr : SrcAddr) (len : Len) (s : State) : (acceptBlock ptr len s).acqChan = s.acqChan := by unfold acceptBlock; split <;> rfl
@[simp] theorem acceptBlock_acqRate (ptr : SrcAddr) (len : Len) (s : State) : (acceptBlock ptr len s).acqRate = s.acqRate := by unfold acceptBlock; split <;> rfl
@[simp] theorem acceptBlock_acqBlk (ptr : SrcAddr) (len : Len) (s : State) : (acceptBlock ptr len s).acqBlk = s.acqBlk := by unfold acceptBlock; split <;> rfl
@[simp] theorem acceptBlock_acqBlks (ptr : SrcAddr) (len : Len) (s : State) : (acceptBlock ptr len s).acqBlks = if len = 0 then s.acqBlks + 1 else s.acqBlks := by unfold acceptBlock; split <;> rfl
@[simp] theorem acceptBlock_acqSamples (ptr : SrcAddr) (len : Len) (s : State) : (acceptBlock ptr len s).acqSamples = s.acqSamples := by unfold acceptBlock; split <;> rfl
@[simp] theorem acceptBlock_synSt (ptr : SrcAddr) (len : Len) (s : State) : (acceptBlock ptr len s).synSt = s.synSt := by unfold acceptBlock; split <;> rfl
@[simp] theorem acceptBlock_tblMem (ptr : SrcAddr) (len : Len) (s : State) : (acceptBlock ptr len s).tblMem = s.tblMem := by unfold acceptBlock; split <;> rfl
@[simp] theorem acceptBlock_tblLen (ptr : SrcAddr) (len : Len) (s : State) : (acceptBlock ptr len s).tblLen = s.tblLen := by unfold acceptBlock; split <;> rfl
@[simp] theorem acceptBlock_tblAddr (ptr : SrcAddr) (len : Len) (s : State) : (acceptBlock ptr len s).tblAddr = s.tblAddr := by unfold acceptBlock; split <;> rfl
@[simp] theorem acceptBlock_synChan (ptr : SrcAddr) (len : Len) (s : State) : (acceptBlock ptr len s).synChan = s.synChan := by unfold acceptBlock; split <;> rfl
@[simp] theorem acceptBlock_synPeriod (ptr : SrcAddr) (len : Len) (s : State) : (acceptBlock ptr len s).synPeriod = s.synPeriod := by unfold acceptBlock; split <;> rfl
@[simp] theorem acceptBlock_pcnt (ptr : SrcAddr) (len : Len) (s : State) : (acceptBlock ptr len s).pcnt = s.pcnt := by unfold acceptBlock; split <;> rfl
@[simp] theorem acceptBlock_idx (ptr : SrcAddr) (len : Len) (s : State) : (acceptBlock ptr len s).idx = s.idx := by unfold acceptBlock; split <;> rfl
@[simp] theorem acceptBlock_synFires (ptr : SrcAddr) (len : Len) (s : State) : (acceptBlock ptr len s).synFires = s.synFires := by unfold acceptBlock; split <;> rfl
@[simp] theorem acceptBlock_dacValid (ptr : SrcAddr) (len : Len) (s : State) : (acceptBlock ptr len s).dacValid = s.dacValid := by unfold acceptBlock; split <;> rfl
@[simp] theorem acceptBlock_dacData (ptr : SrcAddr) (len : Len) (s : State) : (acceptBlock ptr len s).dacData = s.dacData := by unfold acceptBlock; split <;> rfl
@[simp] theorem acceptBlock_lastRes (ptr : SrcAddr) (len : Len) (s : State) : (acceptBlock ptr len s).lastRes = s.lastRes := by unfold acceptBlock; split <;> rfl
@[simp] theorem acceptBlock_fault (ptr : SrcAddr) (len : Len) (s : State) : (acceptBlock ptr len s).fault = s.fault := by unfold acceptBlock; split <;> rfl
@[simp] theorem acceptBlock_env (ptr : SrcAddr) (len : Len) (s : State) : (acceptBlock ptr len s).env = s.env := by unfold acceptBlock; split <;> rfl
@[simp] theorem acceptBlock_inp (ptr : SrcAddr) (len : Len) (s : State) : (acceptBlock ptr len s).inp = s.inp := by unfold acceptBlock; split <;> rfl
@[simp] theorem acceptBlock_out (ptr : SrcAddr) (len : Len) (s : State) : (acceptBlock ptr len s).out = s.out := by unfold acceptBlock; split <;> rfl
@[simp] theorem acceptBlock_cycle (ptr : SrcAddr) (len : Len) (s : State) : (acceptBlock ptr len s).cycle = s.cycle := by unfold acceptBlock; split <;> rfl

/-! ## `advanceCopy` -/

@[simp] theorem advanceCopy_cfg (s : State) : (advanceCopy s).cfg = s.cfg := by unfold advanceCopy; split <;> rfl
@[simp] theorem advanceCopy_rbMem (s : State) : (advanceCopy s).rbMem = s.rbMem := by unfold advanceCopy; split <;> rfl
@[simp] theorem advanceCopy_wp (s : State) : (advanceCopy s).wp = s.wp := by unfold advanceCopy; split <;> rfl
@[simp] theorem advanceCopy_rp (s : State) : (advanceCopy s).rp = s.rp := by unfold advanceCopy; split <;> rfl
@[simp] theorem advanceCopy_ovfCnt (s : State) : (advanceCopy s).ovfCnt = s.ovfCnt := by unfold advanceCopy; split <;> rfl
@[simp] theorem advanceCopy_acqRun (s : State) : (advanceCopy s).acqRun = s.acqRun := by unfold advanceCopy; split <;> rfl
@[simp] theorem advanceCopy_acqBusy (s : State) : (advanceCopy s).acqBusy = if s.cpIdx.toNat + 1 = s.cpLen.toNat then false else s.acqBusy := by unfold advanceCopy; split <;> rfl
@[simp] theorem advanceCopy_cpBase (s : State) : (advanceCopy s).cpBase = s.cpBase := by unfold advanceCopy; split <;> rfl
@[simp] theorem advanceCopy_cpLen (s : State) : (advanceCopy s).cpLen = s.cpLen := by unfold advanceCopy; split <;> rfl
@[simp] theorem advanceCopy_cpIdx (s : State) : (advanceCopy s).cpIdx = if s.cpIdx.toNat + 1 = s.cpLen.toNat then 0 else s.cpIdx + 1 := by unfold advanceCopy; split <;> rfl
@[simp] theorem advanceCopy_ackQ (s : State) : (advanceCopy s).ackQ = if s.cpIdx.toNat + 1 = s.cpLen.toNat then true else s.ackQ := by unfold advanceCopy; split <;> rfl
@[simp] theorem advanceCopy_acqChan (s : State) : (advanceCopy s).acqChan = s.acqChan := by unfold advanceCopy; split <;> rfl
@[simp] theorem advanceCopy_acqRate (s : State) : (advanceCopy s).acqRate = s.acqRate := by unfold advanceCopy; split <;> rfl
@[simp] theorem advanceCopy_acqBlk (s : State) : (advanceCopy s).acqBlk = s.acqBlk := by unfold advanceCopy; split <;> rfl
@[simp] theorem advanceCopy_acqBlks (s : State) : (advanceCopy s).acqBlks = if s.cpIdx.toNat + 1 = s.cpLen.toNat then s.acqBlks + 1 else s.acqBlks := by unfold advanceCopy; split <;> rfl
@[simp] theorem advanceCopy_acqSamples (s : State) : (advanceCopy s).acqSamples = s.acqSamples := by unfold advanceCopy; split <;> rfl
@[simp] theorem advanceCopy_synSt (s : State) : (advanceCopy s).synSt = s.synSt := by unfold advanceCopy; split <;> rfl
@[simp] theorem advanceCopy_tblMem (s : State) : (advanceCopy s).tblMem = s.tblMem := by unfold advanceCopy; split <;> rfl
@[simp] theorem advanceCopy_tblLen (s : State) : (advanceCopy s).tblLen = s.tblLen := by unfold advanceCopy; split <;> rfl
@[simp] theorem advanceCopy_tblAddr (s : State) : (advanceCopy s).tblAddr = s.tblAddr := by unfold advanceCopy; split <;> rfl
@[simp] theorem advanceCopy_synChan (s : State) : (advanceCopy s).synChan = s.synChan := by unfold advanceCopy; split <;> rfl
@[simp] theorem advanceCopy_synPeriod (s : State) : (advanceCopy s).synPeriod = s.synPeriod := by unfold advanceCopy; split <;> rfl
@[simp] theorem advanceCopy_pcnt (s : State) : (advanceCopy s).pcnt = s.pcnt := by unfold advanceCopy; split <;> rfl
@[simp] theorem advanceCopy_idx (s : State) : (advanceCopy s).idx = s.idx := by unfold advanceCopy; split <;> rfl
@[simp] theorem advanceCopy_synFires (s : State) : (advanceCopy s).synFires = s.synFires := by unfold advanceCopy; split <;> rfl
@[simp] theorem advanceCopy_dacValid (s : State) : (advanceCopy s).dacValid = s.dacValid := by unfold advanceCopy; split <;> rfl
@[simp] theorem advanceCopy_dacData (s : State) : (advanceCopy s).dacData = s.dacData := by unfold advanceCopy; split <;> rfl
@[simp] theorem advanceCopy_lastRes (s : State) : (advanceCopy s).lastRes = s.lastRes := by unfold advanceCopy; split <;> rfl
@[simp] theorem advanceCopy_fault (s : State) : (advanceCopy s).fault = s.fault := by unfold advanceCopy; split <;> rfl
@[simp] theorem advanceCopy_env (s : State) : (advanceCopy s).env = s.env := by unfold advanceCopy; split <;> rfl
@[simp] theorem advanceCopy_inp (s : State) : (advanceCopy s).inp = s.inp := by unfold advanceCopy; split <;> rfl
@[simp] theorem advanceCopy_out (s : State) : (advanceCopy s).out = s.out := by unfold advanceCopy; split <;> rfl
@[simp] theorem advanceCopy_cycle (s : State) : (advanceCopy s).cycle = s.cycle := by unfold advanceCopy; split <;> rfl

end Sys2Proof.Machine
end

