-- ==== Sys2Proof/Laws/Ops.lean ====
section
/-! SUPPORT. For each shared operation, everything it can do; provers cite these instead of unfolding. -/

namespace Sys2Proof.Machine

/-- A host read without side effect answers one next state: the read data, nothing else. -/
theorem readReg_next {v : Word} {s t : State} : readReg v s = .next t ↔ t = s.setRdata v := by
  simp [readReg, eq_comm]

/-- A lockable write answers the refusal or the write, each with its result code. -/
theorem writeUnless_next {b : Bool} {s t u : State} :
    writeUnless b s t = .next u ↔ (b = true ∧ u = s.setRes .stateErr) ∨ (b = false ∧ u = t.setRes .ok) := by
  cases b <;> simp [writeUnless, eq_comm]

@[simp] theorem andThen_next (s : State) (f : State → Host.Outcome State Fault Refusal) : andThen (.next s) f = f s := rfl

@[simp] theorem runOps_nil (s : State) : runOps [] s = .next s := rfl

theorem runOps_cons (i : Instr) (is : List Instr) (s : State) : runOps (i :: is) s = andThen (exec i s) (runOps is) := rfl

theorem andThen_assoc (o : Host.Outcome State Fault Refusal) (f g : State → Host.Outcome State Fault Refusal) :
    andThen (andThen o f) g = andThen o fun s => andThen (f s) g := by
  cases o <;> rfl

@[simp] theorem andThen_pure (o : Host.Outcome State Fault Refusal) : andThen o .next = o := by
  cases o <;> rfl

@[simp] theorem runOps_single (i : Instr) (s : State) : runOps [i] s = exec i s := by
  rw [runOps_cons]
  exact andThen_pure _

/-- Running two lists is running one after the other. -/
theorem runOps_append (xs ys : List Instr) (s : State) : runOps (xs ++ ys) s = andThen (runOps xs s) (runOps ys) := by
  induction xs generalizing s with
  | nil => rfl
  | cons i is ih =>
    simp only [List.cons_append, runOps_cons, andThen_assoc]
    exact congrArg _ (funext ih)

/-- A next state of two operations in a row comes through a next state of the first. -/
theorem andThen_eq_next {o : Host.Outcome State Fault Refusal} {f : State → Host.Outcome State Fault Refusal} {u : State} :
    andThen o f = .next u ↔ ∃ t, o = .next t ∧ f t = .next u := by
  cases o <;> simp [andThen]

/-- The capacity is positive, and one more than a pointer's count modulo `2C` is what `nextPtr` gives. -/
theorem capacity_pos (p : Params) : 0 < capacity p := Nat.two_pow_pos _

theorem nextPtr_toNat {p : Params} (q : Pointer) (h : p.legal) :
    (nextPtr p q).toNat = (q.toNat + 1) % (2 * capacity p) := by
  have hc : 2 * capacity p ≤ 2 ^ 16 := by
    have : capacity p ≤ 2 ^ 15 := Nat.pow_le_pow_right (by decide) h.1
    omega
  have hlt := Nat.mod_lt (q.toNat + 1) (show 0 < 2 * capacity p by have := capacity_pos p; omega)
  rw [nextPtr, BitVec.toNat_ofNat, Nat.mod_eq_of_lt (by omega)]

/-- Truncation keeps the value below `2^n`. -/
theorem truncTo_toNat_lt {w : Nat} (n : Nat) (v : BitVec w) : (truncTo n v).toNat < 2 ^ n := by
  unfold truncTo
  rw [BitVec.toNat_ofNat]
  exact lt_of_le_of_lt (Nat.mod_le _ _) (Nat.mod_lt _ (Nat.two_pow_pos n))

/-- A saturated value is at most `VMAX`. -/
theorem satVmax_le (p : Params) (v : Word) : (satVmax p v).toNat ≤ vmax p := by
  unfold satVmax
  rw [BitVec.toNat_ofNat]
  exact (Nat.mod_le _ _).trans (Nat.min_le_right _ _)

end Sys2Proof.Machine
end

