-- ==== Sys2Proof/Laws/Decode.lean ====
section
/-! SUPPORT. The words a cycle presents to the decoder: what each format's fields read from the ports and the state. -/

namespace Sys2Proof.Machine
open Sys2Proof

/-- The host transaction word with its widths in view. -/
theorem hostWord_append (x : Inputs) :
    hostWord x = (BitVec.ofBool x.hWe ++ x.hAddr ++ x.hWdata : BitVec (1 + 6 + 32)) := rfl

/-- Bit 38 of the host word is `h_we`. -/
theorem hostWord_we (x : Inputs) : (hostWord x).getLsbD 38 = x.hWe := by
  rw [hostWord_append, BitVec.getLsbD_append, BitVec.getLsbD_append]
  simp

/-- Bits 37:32 are `h_addr`. -/
theorem hostWord_addr (x : Inputs) : (hostWord x).extractLsb' 32 6 = x.hAddr := by
  rw [hostWord_append]
  ext i hi
  rw [BitVec.getElem_extractLsb', BitVec.getLsbD_append, BitVec.getLsbD_append]
  simp [hi]

/-- Bits 31:0 are `h_wdata`. -/
theorem hostWord_wdata (x : Inputs) : (hostWord x).extractLsb' 0 32 = x.hWdata := by
  rw [hostWord_append]
  ext i hi
  rw [BitVec.getElem_extractLsb', BitVec.getLsbD_append, BitVec.getLsbD_append]
  simp [hi]

/-- The decoder reads the transaction the ports carry. -/
theorem decodeHtw_hostWord (x : Inputs) :
    decodeHtw (hostWord x) = if x.hWe then decodeWrite x.hAddr x.hWdata else decodeRead x.hAddr := by
  simp only [decodeHtw, hostWord_we, hostWord_addr, hostWord_wdata]

/-- The decoder reads the three fields of a host word in ten digits. -/
theorem decode_htwWord (we : Bool) (a : RegAddr) (w : Word) :
    decode (.htw (htwWord we a w)) = .ok (if we then decodeWrite a w else decodeRead a) := by
  have hb : (htwWord we a w).getLsbD 39 = false := by
    unfold htwWord
    rw [BitVec.getLsbD_append, BitVec.getLsbD_append, BitVec.getLsbD_append]
    simp
  have hw : (htwWord we a w).extractLsb' 0 39 = hostWord { Inputs.quiet with hWe := we, hAddr := a, hWdata := w } := by
    have ha : htwWord we a w = (0#1 ++ (BitVec.ofBool we ++ a ++ w) : BitVec (1 + 39)) := by
      unfold htwWord
      rw [BitVec.append_assoc, BitVec.append_assoc, BitVec.append_assoc]
      rfl
    ext i hi
    rw [BitVec.getElem_extractLsb', ha, BitVec.getLsbD_append, hostWord_append]
    simp [hi, ← BitVec.getLsbD_eq_getElem]
  simp only [decode, hb, hw, decodeHtw_hostWord]
  rfl

/-- The port event vector's reset and completion bits. -/
theorem portWord_bits (x : Inputs) : (portWord x).getLsbD 0 = x.rst ∧ (portWord x).getLsbD 2 = x.dmaDone := by
  obtain ⟨rst, hSel, _, _, _, dmaDone, _, _, _, dacReady, acqCfgOk⟩ := x
  simp only [portWord]
  revert rst hSel dmaDone dacReady acqCfgOk
  decide

/-- The four internal event conditions. -/
theorem internalWord_bits (s : State) :
    (internalWord s).getLsbD 0 = s.acqBusy ∧ (internalWord s).getLsbD 1 = fireCond s ∧
      (internalWord s).getLsbD 2 = s.dacValid ∧ (internalWord s).getLsbD 3 = s.inp.dacReady := by
  simp only [internalWord]
  generalize s.acqBusy = a
  generalize fireCond s = b
  generalize s.dacValid = c
  generalize s.inp.dacReady = d
  revert a b c d
  decide

/-- The host operation of a cycle, read from the ports. -/
theorem hostOps_eq (x : Inputs) :
    hostOps x = if x.hSel then [if x.hWe then decodeWrite x.hAddr x.hWdata else decodeRead x.hAddr] else [] := by
  simp only [hostOps, decodeHtw_hostWord]

/-- The events of a cycle without reset, in the order they run. -/
theorem eventOps_eq (s : State) (h : s.inp.rst = false) :
    eventOps s =
      (if s.inp.dmaDone then [Instr.evDmaDone s.inp.dmaPtr s.inp.dmaLen] else []) ++
        ((if s.acqBusy then [.evCopyBeat s.inp.srcData] else []) ++
          (if s.dacValid && s.inp.dacReady then [.evDacAccept] else []) ++ (if fireCond s then [.evFire] else [])) := by
  obtain ⟨h0, h1, h2, h3⟩ := internalWord_bits s
  obtain ⟨hr, hd⟩ := portWord_bits s.inp
  simp only [eventOps, decodeInt, decodePev, h0, h1, h2, h3, hr, hd, h]
  cases s.inp.dmaDone <;> simp

/-- Every read runs before the events of its cycle. -/
theorem runsBeforeEvents_decodeRead : ∀ a : RegAddr, runsBeforeEvents (decodeRead a) = true := by decide

/-- A cycle without reset and without an early host operation: the events, then the late host operation. -/
theorem step_of_no_reset (s : State) (h : (nextInputs s).rst = false) :
    step s =
      andThen (runOps ((hostOps (nextInputs s)).filter runsBeforeEvents) (beginCycle s)) fun t =>
        andThen (runOps (eventOps (beginCycle s)) (tick t)) fun u =>
          runOps ((hostOps (nextInputs s)).filter (fun i => !runsBeforeEvents i)) u := by
  simp [step, runCycle, h]

end Sys2Proof.Machine
end

