-- ==== Sys2Proof/Machine/HostBus.lean ====
section
/-! DEFINITION. A byte-addressed host bus in front of the block (spec 20_memory R61): the one place where the parameter `HOST_ENDIAN`
shows. The block itself is not byte-addressed, so the step never calls this file. -/

namespace Sys2Proof.Machine

/-- The four bytes of a register word on a bus of a byte order, the lowest address first. -/
def busBytes (h : HostParams) (w : Word) : BitVec 8 × BitVec 8 × BitVec 8 × BitVec 8 :=
  match h.hostEndian with
  | .little => (w.extractLsb' 0 8, w.extractLsb' 8 8, w.extractLsb' 16 8, w.extractLsb' 24 8)
  | .big => (w.extractLsb' 24 8, w.extractLsb' 16 8, w.extractLsb' 8 8, w.extractLsb' 0 8)

/-- The register word of four bytes on such a bus, the lowest address first. -/
def busWord (h : HostParams) (b : BitVec 8 × BitVec 8 × BitVec 8 × BitVec 8) : Word :=
  match h.hostEndian with
  | .little => b.2.2.2 ++ b.2.2.1 ++ b.2.1 ++ b.1
  | .big => b.1 ++ b.2.1 ++ b.2.2.1 ++ b.2.2.2

end Sys2Proof.Machine
end

