-- ==== Sys2Proof/Machine/Procedures.lean ====
section
/-! DEFINITION. Host software, not hardware (spec 00_scope R4): the procedures of 45_host_procedures as programs over the machine's step.
The OPEN parameters (R6) are the argument `h`. What the host does besides the block (the sink's `publish`, the platform's services,
the handling of a fault) takes cycles in which it performs no transactions and the block goes on (R246): how many is the host's, an
argument of each procedure (log entry 19). The step never calls this file. -/

namespace Sys2Proof.Machine

/-- A procedure that stopped, or what it returned and the state it left. -/
abbrev Ran (α : Type) := Host.Outcome (α × State) Fault Refusal

/-- Goes on from what a procedure returned. -/
def Ran.andThen {α β : Type} (r : Ran α) (f : α → State → Ran β) : Ran β :=
  match r with
  | .next (a, s) => f a s
  | .fault e => .fault e
  | .refused e => .refused e

/-- One read transaction and the word it returned (40_cycle_and_bus R113). -/
def issueRead (a : RegAddr) (s : State) : Ran Word :=
  match issue (.rd a) s with
  | .next t => .next (t.out.hRdata, t)
  | .fault e => .fault e
  | .refused e => .refused e

/-- A program run for its effect. -/
def issueProgram (ls : List HostLine) (s : State) : Ran Unit :=
  match issueAll ls s with
  | .next t => .next ((), t)
  | .fault e => .fault e
  | .refused e => .refused e

/-- Cycles in which the host performs no transaction: the block's other agents go on (R246). -/
def hostBusy (cycles : Nat) (s : State) : Ran Unit := issueProgram (asmIdle cycles) s

/-! ## Drain -/

/-- POP_BATCH(dest, max) (R240): the samples popped, oldest first. It stops at the first empty read and never waits. -/
def popBatch : Nat → State → Ran (List Sample)
  | 0, s => .next ([], s)
  | n + 1, s =>
    Ran.andThen (issueRead 0x06 s) fun v t =>
      if v.getLsbD 31 then
        Ran.andThen (popBatch n t) fun ds u => .next (truncTo t.cfg.sampleW (v.extractLsb' 0 16) :: ds, u)
      else .next ([], t)

/-- The variant of POP_BATCH that reads RB_COUNT first and pops that many samples, at most `max` (R240). -/
def popCounted (max : Nat) (s : State) : Ran (List Sample) :=
  Ran.andThen (issueRead 0x05 s) fun k t => popBatch (min k.toNat max) t

/-- A bounded wait for `k` samples (R248): polls RB_COUNT at most once for each entry of the list, and says whether the count was
reached. How many polls and how they are spaced is the host's: an entry is how many cycles without transactions stand before its
poll (DESIGN CHOICE, log entry 19). -/
def waitFor (k : Nat) : List Nat → State → Ran Bool
  | [], s => .next (false, s)
  | pause :: pauses, s =>
    Ran.andThen (hostBusy pause s) fun _ s =>
      Ran.andThen (issueRead 0x05 s) fun c t => if k ≤ c.toNat then .next (true, t) else waitFor k pauses t

/-- A call of `publish` (R246). Nothing the sink does comes back to the host. -/
structure Publication where
  label : String
  rawFlag : Bool
  samples : List Sample
  count : Nat
deriving DecidableEq, Repr

/-- `publish` (R246): the host is inside the call for some cycles, performs no transaction, and consults nothing of it. -/
def publish (p : Publication) (cycles : Nat) (s : State) : Ran Publication :=
  Ran.andThen (hostBusy cycles s) fun _ t => .next (p, t)

/-- What TICK hands on: the batch it published, if any (R246), and the faults it read (R247). -/
structure TickReport where
  published : Option Publication
  faults : Word
deriving DecidableEq, Repr

/-- TICK (R241): one POP_BATCH, `publish` (taking `publishCycles`) if any samples were returned, then the read of FAULT. -/
def tickProcedure (h : HostParams) (label : String) (rawFlag : Bool) (publishCycles : Nat) (s : State) : Ran TickReport :=
  Ran.andThen (popBatch h.maxBatch s) fun ds t =>
    Ran.andThen
        (if ds.length > 0 then
          Ran.andThen (publish ⟨label, rawFlag, ds, ds.length⟩ publishCycles t) fun p u => .next (some p, u)
        else .next (none, t)) fun p u =>
      Ran.andThen (issueRead 0x04 u) fun f v => .next (⟨p, f⟩, v)

/-- The other way to poll for faults (R247): STATUS.FAULT_ANY, bit 7 of STATUS (10_state R38). -/
def pollFaultAny (s : State) : Ran Bool :=
  Ran.andThen (issueRead 0x03 s) fun v t => .next (v.getLsbD 7, t)

/-- What the host does about the faults a TICK read (R247): where there are any, it handles them for some cycles and then clears the
bits it saw. Where there are none it does nothing (DESIGN CHOICE, log entry 19). -/
def handleFaults (handleCycles : Nat) (faults : Word) (s : State) : Ran Unit :=
  if faults = 0 then .next ((), s)
  else Ran.andThen (hostBusy handleCycles s) fun _ t => issueProgram (asmClrFault faults) t

/-! ## Starting and stopping -/

/-- SHUTDOWN (R242): synthesis first. -/
def shutdown : List HostLine := asmCmd 4 ++ asmCmd 2

/-- The result code in a STATUS word, `STATUS[10:8]` (10_state R38). -/
def lastResOf (status : Word) : BitVec 3 := status.extractLsb' 8 3

/-- A result code is OK (60_exceptions R281). -/
def isOk (r : BitVec 3) : Bool := r = 0

/-- `r = RD STATUS; res = r[10:8]` (R243, R244): the result code of the last write. -/
def readResult (s : State) : Ran (BitVec 3) := Ran.andThen (issueRead 0x03 s) fun r t => .next (lastResOf r, t)

/-- A program and the result code read in the cycle after it. -/
def issueChecked (ls : List HostLine) (s : State) : Ran (BitVec 3) :=
  Ran.andThen (issueProgram ls s) fun _ t => readResult t

/-- START_ACQ(chan, rate_hz, blk) (R243): the result code read after the start. -/
def startAcq (chan rateHz blk : Word) (s : State) : Ran (BitVec 3) :=
  issueChecked (asmAcqCfg chan rateHz blk ++ asmCmd 1) s

/-- `P = round_half_away(seconds · F_CLK)` (R244), as the word a host that already has a period writes. The spec does not say what
the host does with a time that is negative or gives `P ≥ 2^32`: here a negative `P` becomes 0 and a large one is cut to 32 bits
(DESIGN CHOICE, log entry 18). -/
def periodOfTime (h : HostParams) (seconds : Rat) : Word := BitVec.ofNat 32 (roundHalfAway (seconds * h.fClk)).toNat

/-- `P = round_half_away(F_CLK / rate_hz)` (R244), as the word the host writes. The spec does not say what START_SYN does for
`rate_hz ≤ 0` or for `P ≥ 2^32`: here a rate of 0 or below gives `P = 0`, so that a start from READY or STOPPED ends in CFG_ERR, and a
large `P` is cut to 32 bits (DESIGN CHOICE, log entry 18). -/
def periodOf (h : HostParams) (rateHz : Rat) : Word :=
  if rateHz ≤ 0 then 0 else BitVec.ofNat 32 (roundHalfAway (h.fClk / rateHz)).toNat

/-- The achieved output rate `F_CLK / P` in Hz (R244), of a period of at least 1. -/
def achievedRate (h : HostParams) (period : Word) : Option Rat :=
  if period = 0 then none else some (h.fClk / period.toNat)

/-- START_SYN with the period in cycles (R244): the result code read after the start. -/
def startSynPeriod (chan period : Word) (s : State) : Ran (BitVec 3) :=
  issueChecked (asmSynCfg chan period ++ asmCmd 3) s

/-- START_SYN(chan, rate_hz) (R244). -/
def startSyn (h : HostParams) (chan : Word) (rateHz : Rat) (s : State) : Ran (BitVec 3) :=
  startSynPeriod chan (periodOf h rateHz) s

/-! ## The table -/

/-- The load and the commit of a table, and the check of STATUS.LAST_RES after the commit (41_waveform_table R149): a code other than
OK means that the procedure has failed. The spec does not say in which cycle after the commit the host checks: here it is the next
(DESIGN CHOICE, log entry 19). -/
def loadTable (table : List Word) (s : State) : Ran (BitVec 3) := issueChecked (asmTblLoad table) s

/-- GENERATE(N, A, O) with its check (41_waveform_table R149). -/
noncomputable def generateProcedure (n : Nat) (a o : Real) (s : State) : Ran (BitVec 3) :=
  issueChecked (asmGenerate s.cfg n a o) s

/-! ## Boot and loop -/

/-- The configuration of the host's program (R245). -/
structure HostConfig where
  /-- the table, already generated -/
  table : List Word
  outChan : Word
  outRate : Rat
  inChan : Word
  inRate : Word
  blk : Word
  /-- the label and the raw flag of its `publish` calls -/
  label : String
  rawFlag : Bool
  /-- how long `platformSetup` takes -/
  setupCycles : Nat
  /-- whether the host goes on to the starts after a failed GENERATE, which the spec leaves open (DESIGN CHOICE, log entry 19) -/
  startsAfterFailedTable : Bool
deriving DecidableEq, Repr

/-- The result codes of GENERATE and of the starts; none for a start that was not made. -/
structure BootReport where
  table : BitVec 3
  syn : Option (BitVec 3)
  acq : Option (BitVec 3)
deriving DecidableEq, Repr

/-- Both starts were made and succeeded. -/
def BootReport.ok (b : BootReport) : Bool := (b.syn.map isOk).getD false && (b.acq.map isOk).getD false

/-- The two starts of R245, synthesis first. "A failed `start()` prevents the pipeline from running" (R247): after a failed START_SYN
the host makes no START_ACQ (DESIGN CHOICE, log entry 19). -/
def startSessions (h : HostParams) (c : HostConfig) (s : State) : Ran (BitVec 3 × Option (BitVec 3)) :=
  Ran.andThen (startSyn h c.outChan c.outRate s) fun syn s =>
    if isOk syn then Ran.andThen (startAcq c.inChan c.inRate c.blk s) fun acq s => .next ((syn, some acq), s)
    else .next ((syn, none), s)

/-- The part of R245 before the loop: `platformSetup`, GENERATE with its check (41_waveform_table R149), START_SYN, START_ACQ. Neither
R149 nor R245 says what follows a failed GENERATE: whether the host then makes the starts is its configuration's choice, and where it
does not the boot ends there (DESIGN CHOICE, log entry 19). -/
def boot (h : HostParams) (c : HostConfig) (s : State) : Ran BootReport :=
  Ran.andThen (hostBusy c.setupCycles s) fun _ s =>
    Ran.andThen (loadTable c.table s) fun table s =>
      if isOk table || c.startsAfterFailedTable then
        Ran.andThen (startSessions h c s) fun r s => .next (⟨table, some r.1, r.2⟩, s)
      else .next (⟨table, none, none⟩, s)

/-- What one turn of the loop takes of the host's time, and whether the host chooses to stop on a fault (R247). All of it is the
host's, and the spec fixes none of it. -/
structure Turn where
  publishCycles : Nat
  handleCycles : Nat
  /-- `platformTick` and the host's pacing of TICK (R245) -/
  platformCycles : Nat
  stopOnFault : Bool
deriving DecidableEq, Repr

/-- The loop of R245 for as many turns as are listed: TICK, the handling of the faults it read, `platformTick`. R245 and R247 do not
say where in a turn the handling and its CLRFAULT stand: here they come right after the TICK that read the faults and before
`platformTick`, in a turn that goes on as in one that stops (DESIGN CHOICE, log entry 19). It ends early where the host chooses to stop on a fault.
A list of any length is a prefix of "loop forever". -/
def hostLoop (h : HostParams) (c : HostConfig) : List Turn → State → Ran (List TickReport)
  | [], s => .next ([], s)
  | turn :: turns, s =>
    Ran.andThen (tickProcedure h c.label c.rawFlag turn.publishCycles s) fun r s =>
      Ran.andThen (handleFaults turn.handleCycles r.faults s) fun _ s =>
        if r.faults ≠ 0 ∧ turn.stopOnFault = true then .next ([r], s)
        else
          Ran.andThen (hostBusy turn.platformCycles s) fun _ s =>
            Ran.andThen (hostLoop h c turns s) fun rs s => .next (r :: rs, s)

/-- The host's program (R245): boot, the loop where both starts succeeded (R247), and SHUTDOWN on every exit (DESIGN CHOICE, log
entry 19). -/
def hostProgram (h : HostParams) (c : HostConfig) (turns : List Turn) (s : State) : Ran (BootReport × List TickReport) :=
  Ran.andThen (boot h c s) fun b s =>
    Ran.andThen (if b.ok then hostLoop h c turns s else .next ([], s)) fun rs s =>
      Ran.andThen (issueProgram shutdown s) fun _ s => .next ((b, rs), s)

/-- The host's program with the table of GENERATE(N, A, O) (R245, 41_waveform_table R149). -/
noncomputable def hostProgramGenerating (h : HostParams) (c : HostConfig) (n : Nat) (a o : Real) (turns : List Turn) (s : State) :
    Ran (BootReport × List TickReport) :=
  hostProgram h { c with table := generatedTable s.cfg n a o } turns s

end Sys2Proof.Machine
end

