-- ==== Sys2Proof/Laws/Host.lean ====
section
/-! SUPPORT. What the host's side does: the byte orders are inverse ways round, and each procedure's bounds. -/

namespace Sys2Proof.Machine

/-- Four bytes in a row are the word they were cut from. -/
theorem append_bytes (w : Word) :
    (w.extractLsb' 24 8 ++ w.extractLsb' 16 8 ++ w.extractLsb' 8 8 ++ w.extractLsb' 0 8 : BitVec (8 + 8 + 8 + 8)) = w := by
  apply BitVec.eq_of_getLsbD_eq
  intro i hi
  simp only [BitVec.getLsbD_append, BitVec.getLsbD_extractLsb']
  split
  · simp [*]
  · split
    · simp [*, show 8 + (i - 8) = i by omega]
    · split
      · simp [*, show 16 + (i - 8 - 8) = i by omega]
      · simp [show 24 + (i - 8 - 8 - 8) = i by omega, show i - 8 - 8 - 8 < 8 by omega]

/-- The bytes of a word give the word back, in either byte order. -/
theorem busWord_busBytes (h : HostParams) (w : Word) : busWord h (busBytes h w) = w := by
  unfold busWord busBytes
  cases h.hostEndian <;> exact append_bytes w

@[simp] theorem Ran.andThen_next {α β : Type} (a : α) (s : State) (f : α → State → Ran β) :
    Ran.andThen (.next (a, s)) f = f a s := rfl

/-- A procedure in two parts ends well through a good end of the first. -/
theorem Ran.andThen_eq_next {α β : Type} {r : Ran α} {f : α → State → Ran β} {p : β × State} :
    Ran.andThen r f = .next p ↔ ∃ a s, r = .next (a, s) ∧ f a s = .next p := by
  cases r with
  | next q => exact ⟨fun hf => ⟨q.1, q.2, rfl, hf⟩, fun ⟨_, _, hq, hf⟩ => by cases hq; exact hf⟩
  | fault e => simp [Ran.andThen]
  | refused e => simp [Ran.andThen]

/-- POP_BATCH never returns more than it was asked for (45_host_procedures R240). -/
theorem popBatch_length_le {n : Nat} {s t : State} {ds : List Sample} (h : popBatch n s = .next (ds, t)) : ds.length ≤ n := by
  induction n generalizing s t ds with
  | zero =>
    cases h
    exact Nat.le_refl 0
  | succ n ih =>
    obtain ⟨v, u, _, hu⟩ := Ran.andThen_eq_next.mp h
    split at hu
    · obtain ⟨es, w, hes, hw⟩ := Ran.andThen_eq_next.mp hu
      cases hw
      exact Nat.succ_le_succ (ih hes)
    · cases hu
      exact Nat.zero_le _

/-- Without a fault the host does nothing (R247). -/
@[simp] theorem handleFaults_zero (n : Nat) (s : State) : handleFaults n 0 s = .next ((), s) := by
  simp [handleFaults]

/-- A checked program runs to its end and then reads the result code. -/
theorem issueChecked_eq_next {ls : List HostLine} {s t : State} {r : BitVec 3} :
    issueChecked ls s = .next (r, t) ↔ ∃ u, issueAll ls s = .next u ∧ readResult u = .next (r, t) := by
  unfold issueChecked issueProgram
  cases issueAll ls s <;> simp [Ran.andThen]

/-- GENERATE is the checked load of its table (41_waveform_table R149). -/
theorem generateProcedure_eq (n : Nat) (a o : Real) (s : State) :
    generateProcedure n a o s = loadTable (generatedTable s.cfg n a o) s := rfl

/-- A boot is OK exactly where both starts were made and succeeded (R247). -/
theorem BootReport.ok_iff (b : BootReport) :
    b.ok = true ↔ (∃ r, b.syn = some r ∧ isOk r = true) ∧ ∃ r, b.acq = some r ∧ isOk r = true := by
  obtain ⟨table, syn, acq⟩ := b
  cases syn <;> cases acq <;> simp [BootReport.ok]

/-- The host makes an acquisition start only after a synthesis start that succeeded (R245, R247). -/
theorem startSessions_acq {h : HostParams} {c : HostConfig} {s t : State} {syn r : BitVec 3}
    (hs : startSessions h c s = .next ((syn, some r), t)) : isOk syn = true := by
  obtain ⟨_, _, _, h1⟩ := Ran.andThen_eq_next.mp hs
  split at h1
  · next hok =>
    obtain ⟨_, _, _, h2⟩ := Ran.andThen_eq_next.mp h1
    cases h2
    exact hok
  · cases h1

/-- The host makes a synthesis start only after a table load whose check was OK, unless it is configured to start regardless
(R245, 41_waveform_table R149). -/
theorem boot_syn_isSome {h : HostParams} {c : HostConfig} {s t : State} {b : BootReport} (hb : boot h c s = .next (b, t))
    (hs : b.syn.isSome = true) : isOk b.table = true ∨ c.startsAfterFailedTable = true := by
  obtain ⟨_, _, _, h1⟩ := Ran.andThen_eq_next.mp hb
  obtain ⟨table, _, _, h2⟩ := Ran.andThen_eq_next.mp h1
  split at h2
  · next hok =>
    obtain ⟨_, _, _, h3⟩ := Ran.andThen_eq_next.mp h2
    cases h3
    simpa using hok
  · cases h2
    cases hs

end Sys2Proof.Machine
end

