-- ==== Sys2Proof/Laws/PerInstr.lean ====
section
/-! SUPPORT. Per-instruction statements. `MatchesRow`: the word the encoder writes for a well-formed operation has, in the bits of its row's
mask in spec/opcode_table.json, the row's match. -/

namespace Sys2Proof.Laws
open Sys2Proof

/-- A row of the opcode table: its format, match and mask. -/
inductive TableRow where
  | htw (pat mask : BitVec 40)
  | pev (pat mask : BitVec 5)
  | int (pat mask : BitVec 4)
deriving DecidableEq, Repr

/-- The word lies in the row. -/
def TableRow.holds : TableRow → OpWord → Prop
  | .htw pat mask, .htw w => w &&& mask = pat
  | .pev pat mask, .pev w _ _ => w &&& mask = pat
  | .int pat mask, .int w _ => w &&& mask = pat
  | _, _ => False

/-- The row of each operation in spec/opcode_table.json. -/
def tableRow : Instr → TableRow
  | .rdId => .htw 0x0000000000 0x7F00000000
  | .rdParams => .htw 0x0100000000 0x7F00000000
  | .rdStatus => .htw 0x0300000000 0x7F00000000
  | .rdFault => .htw 0x0400000000 0x7F00000000
  | .rdRbCount => .htw 0x0500000000 0x7F00000000
  | .rdRbData => .htw 0x0600000000 0x7F00000000
  | .rdRbPtrs => .htw 0x0700000000 0x7F00000000
  | .rdOvfCnt => .htw 0x0800000000 0x7F00000000
  | .rdAcqChan => .htw 0x0900000000 0x7F00000000
  | .rdAcqRate => .htw 0x0A00000000 0x7F00000000
  | .rdAcqBlk => .htw 0x0B00000000 0x7F00000000
  | .rdAcqBlks => .htw 0x0C00000000 0x7F00000000
  | .rdAcqSamples => .htw 0x0D00000000 0x7F00000000
  | .rdAcqCur => .htw 0x0E00000000 0x7F00000000
  | .rdSynChan => .htw 0x1000000000 0x7F00000000
  | .rdSynPeriod => .htw 0x1100000000 0x7F00000000
  | .rdSynIdx => .htw 0x1200000000 0x7F00000000
  | .rdSynPcnt => .htw 0x1300000000 0x7F00000000
  | .rdSynFires => .htw 0x1400000000 0x7F00000000
  | .rdTblLen => .htw 0x1500000000 0x7F00000000
  | .rdTblAddr => .htw 0x1600000000 0x7F00000000
  | .rdTblData => .htw 0x1700000000 0x7F00000000
  | .rdDacOut => .htw 0x1800000000 0x7F00000000
  | .rdRsvd _ => .htw 0x0000000000 0x4000000000
  | .wrFault _ => .htw 0x4400000000 0x7F00000000
  | .wrAcqChan _ => .htw 0x4900000000 0x7F00000000
  | .wrAcqRate _ => .htw 0x4A00000000 0x7F00000000
  | .wrAcqBlk _ => .htw 0x4B00000000 0x7F00000000
  | .wrSynChan _ => .htw 0x5000000000 0x7F00000000
  | .wrSynPeriod _ => .htw 0x5100000000 0x7F00000000
  | .wrTblLen _ => .htw 0x5500000000 0x7F00000000
  | .wrTblAddr _ => .htw 0x5600000000 0x7F00000000
  | .wrTblData _ => .htw 0x5700000000 0x7F00000000
  | .cmdNop => .htw 0x4200000000 0x7FFFFFFFFF
  | .cmdAcqStart => .htw 0x4200000001 0x7FFFFFFFFF
  | .cmdAcqStop => .htw 0x4200000002 0x7FFFFFFFFF
  | .cmdSynStart => .htw 0x4200000003 0x7FFFFFFFFF
  | .cmdSynStop => .htw 0x4200000004 0x7FFFFFFFFF
  | .cmdTblCommit => .htw 0x4200000005 0x7FFFFFFFFF
  | .cmdRsvd _ => .htw 0x4200000000 0x7F00000000
  | .wrIgnored _ _ => .htw 0x4000000000 0x4000000000
  | .evReset => .pev 0x01 0x01
  | .evDmaDone _ _ => .pev 0x04 0x05
  | .evCopyBeat _ => .int 0x1 0x1
  | .evFire => .int 0x2 0x2
  | .evDacAccept => .int 0xC 0xC

/-- Masking off the low part of a word leaves nothing of it. -/
theorem mask_append {m n : Nat} (x k : BitVec m) (v w : BitVec n) : (x ++ v) &&& (k ++ 0#n) = (x ++ w) &&& (k ++ 0#n) := by
  rw [BitVec.and_append, BitVec.and_append]
  simp

/-- The two masks of the host rows, split into the `WE` and `ADDR` part and the `WDATA` part. -/
theorem addrMask_split : (0x7F00000000 : BitVec 40) = (0x7F#8 ++ 0#32 : BitVec (8 + 32)) := by decide

theorem weMask_split : (0x4000000000 : BitVec 40) = (0x40#8 ++ 0#32 : BitVec (8 + 32)) := by decide

/-- A host word masked to `WE` and `ADDR`. -/
theorem htwWord_addrMask (we : Bool) (a : RegAddr) (w : Word) :
    htwWord we a w &&& 0x7F00000000 = htwWord we a 0 &&& 0x7F00000000 := by
  rw [addrMask_split]
  exact mask_append (0#1 ++ BitVec.ofBool we ++ a : BitVec 8) 0x7F#8 w 0

/-- A host word masked to `WE`. -/
theorem htwWord_weMask (we : Bool) (a : RegAddr) (w : Word) :
    htwWord we a w &&& 0x4000000000 = htwWord we 0 0 &&& 0x4000000000 := by
  have ha : htwWord we a 0 &&& 0x4000000000 = htwWord we 0 0 &&& 0x4000000000 := by
    revert we a
    decide
  rw [← ha, weMask_split]
  exact mask_append (0#1 ++ BitVec.ofBool we ++ a : BitVec 8) 0x40#8 w 0

/-- A specific host row: the operand's bits do not touch the mask. -/
theorem holds_of_addrMask {we : Bool} {a : RegAddr} {pat : BitVec 40} (w : Word)
    (h : htwWord we a 0 &&& 0x7F00000000 = pat) : (TableRow.htw pat 0x7F00000000).holds (.htw (htwWord we a w)) :=
  (htwWord_addrMask we a w).trans h

/-- A catch-all host row. -/
theorem holds_of_weMask {we : Bool} {pat : BitVec 40} (a : RegAddr) (w : Word)
    (h : htwWord we 0 0 &&& 0x4000000000 = pat) : (TableRow.htw pat 0x4000000000).holds (.htw (htwWord we a w)) :=
  (htwWord_weMask we a w).trans h

namespace MatchesRow

/-- The encoded word of a well-formed operation lies in the operation's row. -/
def Statement (i : Instr) : Prop := i.WellFormed = true → (tableRow i).holds (encode i)

theorem rdId : Statement (.rdId) := fun _ => rfl
theorem rdParams : Statement (.rdParams) := fun _ => rfl
theorem rdStatus : Statement (.rdStatus) := fun _ => rfl
theorem rdFault : Statement (.rdFault) := fun _ => rfl
theorem rdRbCount : Statement (.rdRbCount) := fun _ => rfl
theorem rdRbData : Statement (.rdRbData) := fun _ => rfl
theorem rdRbPtrs : Statement (.rdRbPtrs) := fun _ => rfl
theorem rdOvfCnt : Statement (.rdOvfCnt) := fun _ => rfl
theorem rdAcqChan : Statement (.rdAcqChan) := fun _ => rfl
theorem rdAcqRate : Statement (.rdAcqRate) := fun _ => rfl
theorem rdAcqBlk : Statement (.rdAcqBlk) := fun _ => rfl
theorem rdAcqBlks : Statement (.rdAcqBlks) := fun _ => rfl
theorem rdAcqSamples : Statement (.rdAcqSamples) := fun _ => rfl
theorem rdAcqCur : Statement (.rdAcqCur) := fun _ => rfl
theorem rdSynChan : Statement (.rdSynChan) := fun _ => rfl
theorem rdSynPeriod : Statement (.rdSynPeriod) := fun _ => rfl
theorem rdSynIdx : Statement (.rdSynIdx) := fun _ => rfl
theorem rdSynPcnt : Statement (.rdSynPcnt) := fun _ => rfl
theorem rdSynFires : Statement (.rdSynFires) := fun _ => rfl
theorem rdTblLen : Statement (.rdTblLen) := fun _ => rfl
theorem rdTblAddr : Statement (.rdTblAddr) := fun _ => rfl
theorem rdTblData : Statement (.rdTblData) := fun _ => rfl
theorem rdDacOut : Statement (.rdDacOut) := fun _ => rfl
theorem rdRsvd (addr : RegAddr) : Statement (.rdRsvd addr) := fun _ => holds_of_weMask _ _ (by decide)
theorem wrFault (mask : FaultBits) : Statement (.wrFault mask) := fun _ => holds_of_addrMask _ (by decide)
theorem wrAcqChan (chan : Chan) : Statement (.wrAcqChan chan) := fun _ => holds_of_addrMask _ (by decide)
theorem wrAcqRate (rate : Word) : Statement (.wrAcqRate rate) := fun _ => holds_of_addrMask _ (by decide)
theorem wrAcqBlk (blk : Len) : Statement (.wrAcqBlk blk) := fun _ => holds_of_addrMask _ (by decide)
theorem wrSynChan (chan : Chan) : Statement (.wrSynChan chan) := fun _ => holds_of_addrMask _ (by decide)
theorem wrSynPeriod (period : Word) : Statement (.wrSynPeriod period) := fun _ => holds_of_addrMask _ (by decide)
theorem wrTblLen (n : BitVec 17) : Statement (.wrTblLen n) := fun _ => holds_of_addrMask _ (by decide)
theorem wrTblAddr (a : Word) : Statement (.wrTblAddr a) := fun _ => holds_of_addrMask _ (by decide)
theorem wrTblData (v : Word) : Statement (.wrTblData v) := fun _ => holds_of_addrMask _ (by decide)
theorem cmdNop : Statement (.cmdNop) := fun _ => rfl
theorem cmdAcqStart : Statement (.cmdAcqStart) := fun _ => rfl
theorem cmdAcqStop : Statement (.cmdAcqStop) := fun _ => rfl
theorem cmdSynStart : Statement (.cmdSynStart) := fun _ => rfl
theorem cmdSynStop : Statement (.cmdSynStop) := fun _ => rfl
theorem cmdTblCommit : Statement (.cmdTblCommit) := fun _ => rfl
theorem cmdRsvd (wdata : Word) : Statement (.cmdRsvd wdata) := fun _ => holds_of_addrMask _ (by decide)
theorem wrIgnored (addr : RegAddr) (wdata : Word) : Statement (.wrIgnored addr wdata) := fun _ => holds_of_weMask _ _ (by decide)
theorem evReset : Statement (.evReset) := fun _ => rfl
theorem evDmaDone (ptr : SrcAddr) (len : Len) : Statement (.evDmaDone ptr len) := fun _ => rfl
theorem evCopyBeat (data : Sample) : Statement (.evCopyBeat data) := fun _ => rfl
theorem evFire : Statement (.evFire) := fun _ => rfl
theorem evDacAccept : Statement (.evDacAccept) := fun _ => rfl

end MatchesRow

end Sys2Proof.Laws
end

