-- ==== Sys2Proof/Tests/Slice0.lean ====
section
/-! SUPPORT. Tests of the model, and witnesses of the statements' hypotheses. The expected values of a test come from the spec: the
vectors and the programs of 95_test_vectors (H, D, T, G, B, A, S, W, R, HP, named in the test's docstring), the encoding table
of 30_encoding R85 and its examples R90. -/

namespace Sys2Proof.Tests
open Sys2Proof Sys2Proof.Machine Sys2Proof.Claims

/-! ## Well-formedness: each check refuses an ill-formed term -/

theorem test_wf_read_of_a_defined_register_is_not_reserved : Instr.WellFormed (.rdRsvd 0x18) = false := by decide
theorem test_wf_write_of_a_defined_register_is_not_ignored : Instr.WellFormed (.wrIgnored 0x17 5) = false := by decide
theorem test_wf_defined_command_is_not_reserved : Instr.WellFormed (.cmdRsvd 5) = false := by decide

/-! ## Decoding: one word for each constructor, written out from R80 to R85 -/

theorem test_decode_rdId : decodeTableWord 40 0x0000000000 = some (.rdId) := by decide
theorem test_decode_rdParams : decodeTableWord 40 0x0100000000 = some (.rdParams) := by decide
theorem test_decode_rdStatus : decodeTableWord 40 0x0300000000 = some (.rdStatus) := by decide
theorem test_decode_rdFault : decodeTableWord 40 0x0400000000 = some (.rdFault) := by decide
theorem test_decode_rdRbCount : decodeTableWord 40 0x0500000000 = some (.rdRbCount) := by decide
theorem test_decode_rdRbData : decodeTableWord 40 0x0600000000 = some (.rdRbData) := by decide
theorem test_decode_rdRbPtrs : decodeTableWord 40 0x0700000000 = some (.rdRbPtrs) := by decide
theorem test_decode_rdOvfCnt : decodeTableWord 40 0x0800000000 = some (.rdOvfCnt) := by decide
theorem test_decode_rdAcqChan : decodeTableWord 40 0x0900000000 = some (.rdAcqChan) := by decide
theorem test_decode_rdAcqRate : decodeTableWord 40 0x0A00000000 = some (.rdAcqRate) := by decide
theorem test_decode_rdAcqBlk : decodeTableWord 40 0x0B00000000 = some (.rdAcqBlk) := by decide
theorem test_decode_rdAcqBlks : decodeTableWord 40 0x0C00000000 = some (.rdAcqBlks) := by decide
theorem test_decode_rdAcqSamples : decodeTableWord 40 0x0D00000000 = some (.rdAcqSamples) := by decide
theorem test_decode_rdAcqCur : decodeTableWord 40 0x0E00000000 = some (.rdAcqCur) := by decide
theorem test_decode_rdSynChan : decodeTableWord 40 0x1000000000 = some (.rdSynChan) := by decide
theorem test_decode_rdSynPeriod : decodeTableWord 40 0x1100000000 = some (.rdSynPeriod) := by decide
theorem test_decode_rdSynIdx : decodeTableWord 40 0x1200000000 = some (.rdSynIdx) := by decide
theorem test_decode_rdSynPcnt : decodeTableWord 40 0x1300000000 = some (.rdSynPcnt) := by decide
theorem test_decode_rdSynFires : decodeTableWord 40 0x1400000000 = some (.rdSynFires) := by decide
theorem test_decode_rdTblLen : decodeTableWord 40 0x1500000000 = some (.rdTblLen) := by decide
theorem test_decode_rdTblAddr : decodeTableWord 40 0x1600000000 = some (.rdTblAddr) := by decide
theorem test_decode_rdTblData : decodeTableWord 40 0x1700000000 = some (.rdTblData) := by decide
theorem test_decode_rdDacOut : decodeTableWord 40 0x1800000000 = some (.rdDacOut) := by decide
theorem test_decode_rdRsvd : decodeTableWord 40 0x0F00000000 = some (.rdRsvd 0x0F) := by decide
theorem test_decode_wrFault : decodeTableWord 40 0x44FFFFFFFD = some (.wrFault 5) := by decide
theorem test_decode_wrAcqChan : decodeTableWord 40 0x49000001FF = some (.wrAcqChan 0xFF) := by decide
theorem test_decode_wrAcqRate : decodeTableWord 40 0x4A000003E8 = some (.wrAcqRate 1000) := by decide
theorem test_decode_wrAcqBlk : decodeTableWord 40 0x4B00012345 = some (.wrAcqBlk 0x2345) := by decide
theorem test_decode_wrSynChan : decodeTableWord 40 0x5000000101 = some (.wrSynChan 1) := by decide
theorem test_decode_wrSynPeriod : decodeTableWord 40 0x5100000002 = some (.wrSynPeriod 2) := by decide
theorem test_decode_wrTblLen : decodeTableWord 40 0x5500030005 = some (.wrTblLen 0x10005) := by decide
theorem test_decode_wrTblAddr : decodeTableWord 40 0x5600000105 = some (.wrTblAddr 0x105) := by decide
theorem test_decode_wrTblData : decodeTableWord 40 0x570000012C = some (.wrTblData 300) := by decide
theorem test_decode_cmdNop : decodeTableWord 40 0x4200000000 = some (.cmdNop) := by decide
theorem test_decode_cmdAcqStart : decodeTableWord 40 0x4200000001 = some (.cmdAcqStart) := by decide
theorem test_decode_cmdAcqStop : decodeTableWord 40 0x4200000002 = some (.cmdAcqStop) := by decide
theorem test_decode_cmdSynStart : decodeTableWord 40 0x4200000003 = some (.cmdSynStart) := by decide
theorem test_decode_cmdSynStop : decodeTableWord 40 0x4200000004 = some (.cmdSynStop) := by decide
theorem test_decode_cmdTblCommit : decodeTableWord 40 0x4200000005 = some (.cmdTblCommit) := by decide
theorem test_decode_cmdRsvd : decodeTableWord 40 0x4280000002 = some (.cmdRsvd 0x80000002) := by decide
theorem test_decode_wrIgnored : decodeTableWord 40 0x4800000005 = some (.wrIgnored 0x08 5) := by decide
theorem test_decode_evReset : decodeTableWord 8 0x01 = some .evReset := by decide
theorem test_decode_evDmaDone : decode (.pev 0b11100 0x100 3) = .ok (.evDmaDone 0x100 3) := by decide
theorem test_decode_evCopyBeat : decode (.int 0b1001 0x7F) = .ok (.evCopyBeat 0x7F) := by decide
theorem test_decode_evFire : decodeTableWord 8 0x02 = some .evFire := by decide
theorem test_decode_evDacAccept : decodeTableWord 8 0x0C = some .evDacAccept := by decide
theorem test_decode_reset_overrides_dma_done : decode (.pev 0b00101 0x100 3) = .ok .evReset := by decide

theorem test_decode_refuses_bit_39 : decode (.htw 0x8000000000) = .error .hostWordTooLong := by decide
theorem test_decode_refuses_no_port_event : decode (.pev 0b11010 0 0) = .error .noPortEvent := by decide
theorem test_decode_refuses_no_internal_event : decode (.int 0b1000 0) = .error .noInternalEvent := by decide
theorem test_decode_refuses_two_internal_events : decode (.int 0b0011 0) = .error .severalInternalEvents := by decide

/-! ## Small states and single cycles -/

/-- The cycle of `s` in which the ports carry `x`. -/
def cyc (x : Inputs) (s : State) : Option State :=
  match step { s with env := [x] } with
  | .next t => some t
  | _ => none

/-- The host reads register `a`. -/
def rd (a : RegAddr) : Inputs := { Inputs.idle with hSel := true, hAddr := a }

/-- The host writes `w` to register `a`. -/
def wr (a : RegAddr) (w : Word) : Inputs := { Inputs.idle with hSel := true, hWe := true, hAddr := a, hWdata := w }

/-- The environment completes a block (`@DMA ptr, len`). -/
def dma (ptr : SrcAddr) (len : Len) (x : Inputs) : Inputs := { x with dmaDone := true, dmaPtr := ptr, dmaLen := len }

/-- What a read of `a` returns. -/
def readOf (a : RegAddr) (s : State) : Option Word := (cyc (rd a) s).map fun t => t.out.hRdata

/-- `C = 4`, the other parameters at their defaults. -/
def c4 : State := { State.reset with cfg := { Params.defaults with capLog2 := 2 } }

/-- The start state of the ring-buffer vectors B1 to B17. -/
def ring (wp rp : Pointer) : State := { c4 with rbMem := [(0, 0x10), (1, 0x11), (2, 0x12), (3, 0x13)], wp := wp, rp := rp }

/-- A ring-buffer vector with a push: the last of many beats, `src_data = 0x0AA`. -/
def pushing (s : State) : State := { s with acqBusy := true, cpLen := 9 }

/-- The beat's data, on any ports. -/
def beat (d : Sample) (x : Inputs) : Inputs := { x with srcData := d }

/-- The start state of the adapter vectors A1 to A25. -/
def acq : State := { c4 with acqRun := true, acqBlk := 3, acqRate := 1000 }

/-- The start state of A4. -/
def acq4 : State :=
  { acq with acqBusy := true, cpBase := 0x100, cpLen := 3, cpIdx := 1, wp := 1, acqSamples := 1, rbMem := [(0, 0x100)] }

/-- The start state of the sequencer vectors S1 to S25. -/
def syn (st : SynState) (p pc : Word) (ix : Len) : State :=
  { c4 with tblMem := [(0, 10), (1, 20), (2, 30)], tblLen := 3, synSt := st, synPeriod := p, pcnt := pc, idx := ix }

/-- The start state of S4 and S5: a firing over a pending write. -/
def syn4 : State := { syn .running 3 0 1 with dacValid := true, dacData := 10 }

/-! ## Reads -/

/-- H1. -/
theorem test_rd_id : readOf 0x00 c4 = some 0x45490006 := by decide
/-- H3. -/
theorem test_rd_params : readOf 0x01 c4 = some 0x00821882 := by decide
/-- H5. -/
theorem test_rd_params_at_maximum : readOf 0x01 { c4 with cfg := ⟨15, 16, 16, 16, 32⟩ } = some 0x0104210F := by decide
/-- H10. -/
theorem test_rd_status : readOf 0x03 { c4 with synSt := .stopped, dacValid := true, fault := 4 } = some 0xBC := by decide
/-- H9. -/
theorem test_rd_status_full : readOf 0x03 { c4 with acqRun := true, wp := 6, rp := 2 } = some 0x41 := by decide
/-- W8. -/
theorem test_rd_fault : (cyc (rd 0x04) { c4 with fault := 2 }).map (fun t => (t.out.hRdata, t.fault)) = some (2, 2) := by
  decide
/-- B13. -/
theorem test_rd_rb_count : readOf 0x05 (ring 5 1) = some 4 := by decide
/-- B15. -/
theorem test_rd_rb_count_wrapped : readOf 0x05 (ring 0 4) = some 4 := by decide
/-- B9. -/
theorem test_rd_rb_data : (cyc (rd 0x06) (ring 7 3)).map (fun t => (t.out.hRdata, t.rp)) = some (0x80000013, 4) := by decide
/-- B1. -/
theorem test_rd_rb_data_empty : (cyc (rd 0x06) (ring 0 0)).map (fun t => (t.out.hRdata, t.rp)) = some (0, 0) := by decide
/-- B14. -/
theorem test_rd_rb_ptrs : readOf 0x07 (ring 5 1) = some 0x00010005 := by decide
/-- B16. -/
theorem test_rd_ovf_cnt_wraps :
    (cyc (beat 0xAA Inputs.idle) (pushing { ring 4 0 with ovfCnt := 0xFFFFFFFF })).bind (readOf 0x08) = some 0 := by decide
/-- A19, R196. -/
theorem test_rd_acq_chan : (cyc (wr 0x09 0x1FF) { acq with acqRun := false }).bind (readOf 0x09) = some 0xFF := by decide
/-- A20, R197. -/
theorem test_rd_acq_rate : readOf 0x0A acq = some 1000 := by decide
/-- A17, R198. -/
theorem test_rd_acq_blk : readOf 0x0B acq = some 3 := by decide
/-- A25. -/
theorem test_rd_acq_blks : readOf 0x0C { acq with acqBlks := 2 } = some 2 := by decide
/-- A25. -/
theorem test_rd_acq_samples : readOf 0x0D { acq with acqSamples := 6 } = some 6 := by decide
/-- A24: the pre-state's value in the cycle of a beat. -/
theorem test_rd_acq_cur : readOf 0x0E acq4 = some 0x00030001 := by decide
/-- S21, R226. -/
theorem test_rd_syn_chan : (cyc (wr 0x10 0x101) (syn .stopped 3 0 0)).bind (readOf 0x10) = some 1 := by decide
/-- S20, R227. -/
theorem test_rd_syn_period : (cyc (wr 0x11 5) (syn .stopped 3 0 0)).bind (readOf 0x11) = some 5 := by decide
/-- S23. -/
theorem test_rd_syn_idx : readOf 0x12 (syn .running 3 1 2) = some 2 := by decide
/-- S25: the pre-state's value. -/
theorem test_rd_syn_pcnt :
    (cyc (rd 0x13) (syn .running 3 1 2)).map (fun t => (t.out.hRdata, t.pcnt)) = some (1, 0) := by decide
/-- S24. -/
theorem test_rd_syn_fires : readOf 0x14 { syn .running 3 1 2 with synFires := 5 } = some 5 := by decide
/-- T17. -/
theorem test_rd_tbl_len : readOf 0x15 { c4 with synSt := .ready, tblLen := 100 } = some 100 := by decide
/-- T2 and R146. -/
theorem test_rd_tbl_addr : (cyc (wr 0x17 0x7F) { c4 with tblAddr := 5 }).bind (readOf 0x16) = some 6 := by decide
/-- T16. -/
theorem test_rd_tbl_data :
    (cyc (rd 0x17) { c4 with synSt := .running, synPeriod := 9, pcnt := 5, tblLen := 4, tblAddr := 3, tblMem := [(3, 255)] }).map
      (fun t => (t.out.hRdata, t.tblAddr)) = some (255, 3) := by decide
/-- S22. -/
theorem test_rd_dac_out : readOf 0x18 { c4 with dacValid := true, dacData := 0x1E } = some 0x0001001E := by decide
/-- H15. -/
theorem test_rd_rsvd : readOf 0x3F c4 = some 0 := by decide

/-! ## Writes and commands -/

/-- W3. -/
theorem test_wr_fault_ignores_upper_bits : (cyc (wr 0x04 0xFFFFFFF8) { c4 with fault := 7 }).map (·.fault) = some 7 := by decide
/-- W4: set wins over clear. -/
theorem test_wr_fault_set_wins :
    (cyc { wr 0x04 4 with dacReady := false } { syn4 with fault := 4 }).map (·.fault) = some 4 := by decide
/-- A19. -/
theorem test_wr_acq_chan :
    (cyc (wr 0x09 0x1FF) { acq with acqRun := false }).map (fun t => (t.acqChan, t.lastRes)) = some (0xFF, .ok) := by decide
/-- A20. -/
theorem test_wr_acq_rate :
    (cyc (wr 0x0A 0xFFFFFFFF) { acq with acqRun := false }).map (fun t => (t.acqRate, t.lastRes)) = some (0xFFFFFFFF, .ok) := by
  decide
/-- A18. -/
theorem test_wr_acq_blk :
    (cyc (wr 0x0B 0x12345) { acq with acqRun := false }).map (fun t => (t.acqBlk, t.lastRes)) = some (0x2345, .ok) := by decide
/-- A17. -/
theorem test_wr_acq_blk_refused : (cyc (wr 0x0B 4) acq).map (fun t => (t.acqBlk, t.lastRes)) = some (3, .stateErr) := by decide
/-- S21. -/
theorem test_wr_syn_chan :
    (cyc (wr 0x10 0x101) (syn .stopped 3 0 0)).map (fun t => (t.synChan, t.lastRes)) = some (1, .ok) := by decide
/-- S19: refused, and the period counter goes on counting. -/
theorem test_wr_syn_period_refused :
    (cyc (wr 0x11 5) (syn .running 3 1 0)).map (fun t => (t.synPeriod, t.pcnt, t.lastRes)) = some (3, 0, .stateErr) := by decide
/-- T6. -/
theorem test_wr_tbl_len : (cyc (wr 0x15 0x00030005) c4).map (·.tblLen) = some 0x10005 := by decide
/-- T12. -/
theorem test_wr_tbl_len_refused :
    (cyc (wr 0x15 3) { c4 with synSt := .ready, tblLen := 9 }).map (fun t => (t.tblLen, t.lastRes)) = some (9, .stateErr) := by
  decide
/-- T1. -/
theorem test_wr_tbl_addr : (cyc (wr 0x16 0x105) c4).map (·.tblAddr) = some 5 := by decide
/-- T4: saturation. -/
theorem test_wr_tbl_data_saturates :
    (cyc (wr 0x17 256) { c4 with tblAddr := 3 }).map (fun t => (t.tblMem, t.tblAddr)) = some ([(3, 255)], 4) := by decide
/-- T3: the load address wraps. -/
theorem test_wr_tbl_data_wraps :
    (cyc (wr 0x17 1) { c4 with tblAddr := 255 }).map (fun t => (t.tblMem, t.tblAddr)) = some ([(255, 1)], 0) := by decide
/-- D7. -/
theorem test_cmd_nop : (cyc (wr 0x02 0) { c4 with lastRes := .badCmd }).map (·.lastRes) = some .ok := by decide
/-- A12: a block of `C` samples is legal. -/
theorem test_cmd_acq_start :
    (cyc (wr 0x02 1) { acq with acqRun := false, acqBlk := 4, acqRate := 1 }).map (fun t => (t.acqRun, t.lastRes)) =
      some (true, .ok) := by decide
/-- A13. -/
theorem test_cmd_acq_start_too_long :
    (cyc (wr 0x02 1) { acq with acqRun := false, acqBlk := 5 }).map (fun t => (t.acqRun, t.lastRes)) =
      some (false, .cfgErr) := by decide
/-- A9: the beat of the same cycle still happens. -/
theorem test_cmd_acq_stop :
    (cyc (beat 0x101 (wr 0x02 2)) acq4).map (fun t => (t.acqRun, t.lastRes, t.wp, t.cpIdx, t.rbMem.cellAt 1)) =
      some (false, .ok, 2, 2, some 0x101) := by decide
/-- S12: a restart, not a resume. -/
theorem test_cmd_syn_start :
    (cyc (wr 0x02 3) (syn .stopped 3 1 2)).map (fun t => (t.synSt, t.idx, t.pcnt, t.lastRes)) = some (.running, 0, 2, .ok) := by
  decide
/-- S13. -/
theorem test_cmd_syn_start_refused :
    (cyc (wr 0x02 3) (syn .running 3 1 2)).map (fun t => (t.idx, t.pcnt, t.lastRes)) = some (2, 0, .stateErr) := by decide
/-- S16: the firing of the same cycle still happens. -/
theorem test_cmd_syn_stop :
    (cyc (wr 0x02 4) (syn .running 3 0 1)).map (fun t => (t.synSt, t.dacData, t.dacValid, t.idx, t.pcnt, t.lastRes)) =
      some (.stopped, 20, true, 2, 2, .ok) := by decide
/-- T9. -/
theorem test_cmd_tbl_commit : (cyc (wr 0x02 5) { c4 with tblLen := 256 }).map (fun t => (t.synSt, t.lastRes)) =
    some (.ready, .ok) := by decide
/-- T8. -/
theorem test_cmd_tbl_commit_refused : (cyc (wr 0x02 5) { c4 with tblLen := 257 }).map (fun t => (t.synSt, t.lastRes)) =
    some (.uninit, .cfgErr) := by decide
/-- D6. -/
theorem test_cmd_rsvd : (cyc (wr 0x02 0x80000002) acq).map (fun t => (t.acqRun, t.lastRes)) = some (true, .badCmd) := by decide
/-- H16. -/
theorem test_wr_ignored : (cyc (wr 0x00 5) { c4 with lastRes := .cfgErr }).map (·.lastRes) = some .cfgErr := by decide

/-! ## Events -/

/-- R1: the reset of a busy block, `dma_done` and a read in the same cycle. -/
theorem test_ev_reset :
    (cyc { dma 0 3 (rd 0x03) with rst := true }
        { acq4 with cpBase := 0, wp := 3, rp := 1, ovfCnt := 9, synSt := .running, dacValid := true, dacData := 7 }).map
      (fun t => (t.out, t.wp, t.acqBusy, t.synSt, t.rbMem.cellAt 0)) =
      some ({ Outputs.zero with srcRd := true, srcAddr := 1, acqArm := true, acqRateO := 1000, acqBlkO := 3, dacValid := true,
                                dacData := 7 }, 0, false, .uninit, some 0x100) := by decide
/-- R4. -/
theorem test_ev_reset_discards_the_write :
    (cyc { wr 0x09 5 with rst := true } c4).map (fun t => (t.acqChan, t.lastRes)) = some (0, .ok) := by decide
/-- A2. -/
theorem test_ev_dma_done :
    (cyc (dma 0x100 2 Inputs.idle) acq).map (fun t => (t.acqBusy, t.cpBase, t.cpLen, t.fault)) = some (true, 0x100, 2, 2) := by
  decide
/-- A6. -/
theorem test_ev_dma_done_reentry :
    (cyc (dma 0x200 3 (beat 0x102 Inputs.idle)) { acq4 with cpIdx := 2, wp := 2, acqSamples := 2 }).map
      (fun t => (t.fault, t.cpBase, t.acqBusy, t.ackQ, t.acqBlks)) = some (1, 0x100, false, true, 1) := by decide
/-- A22: the source address wraps at `ADDR_W`. -/
theorem test_ev_copy_beat :
    (cyc (beat 0xABC Inputs.idle) { acq with acqBusy := true, cpBase := 0xFFFF, cpLen := 3, cpIdx := 1 }).map
      (fun t => (t.out.srcAddr, t.rbMem, t.wp, t.cpIdx)) = some (0, [(0, 0xABC)], 1, 2) := by decide
/-- B6: a push and a pop of a full buffer in one cycle. -/
theorem test_ev_copy_beat_with_a_pop :
    (cyc (beat 0xAA (rd 0x06)) (pushing (ring 4 0))).map (fun t => (t.out.hRdata, t.wp, t.rp, t.ovfCnt, t.rbMem.cellAt 0)) =
      some (0x80000010, 5, 1, 0, some 0xAA) := by decide
/-- S3: the index wraps. -/
theorem test_ev_fire :
    (cyc Inputs.idle (syn .running 3 0 2)).map (fun t => (t.dacData, t.dacValid, t.idx, t.pcnt, t.synFires)) =
      some (30, true, 0, 2, 1) := by decide
/-- S5: a reentrant firing. -/
theorem test_ev_fire_reentrant :
    (cyc Inputs.quiet syn4).map (fun t => (t.fault, t.pcnt, t.idx, t.dacData, t.dacValid, t.synFires)) =
      some (4, 2, 1, 10, true, 0) := by decide
/-- S8. -/
theorem test_ev_dac_accept :
    (cyc Inputs.idle { syn .stopped 3 1 1 with dacValid := true, dacData := 10 }).map (fun t => (t.dacValid, t.pcnt)) =
      some (false, 1) := by decide
/-- S4: the accept and the firing of one cycle. -/
theorem test_ev_dac_accept_and_fire :
    (cyc Inputs.idle syn4).map (fun t => (t.dacData, t.dacValid, t.idx, t.fault)) = some (20, true, 2, 0) := by decide

/-! ## Host text and host procedures -/

/-- G6: the rounding of the entries of an 8-entry table (here of the unrounded values the spec prints). -/
theorem test_round_half_away : roundHalfAway (201 / 2 : Rat) = 101 ∧ roundHalfAway (-1 / 2 : Rat) = -1 ∧
    roundHalfAway (149497 / 1000 : Rat) = 149 := by decide +kernel
/-- R61: the bytes of the ID word in either order. -/
theorem test_bus_bytes :
    busBytes ⟨1, 1, .little⟩ 0x45490006 = (0x06, 0x00, 0x49, 0x45) ∧ busBytes ⟨1, 1, .big⟩ 0x45490006 = (0x45, 0x49, 0x00, 0x06) := by
  decide

/-- The example clock of the vectors HP1 to HP6, and a batch of 2. -/
def host : HostParams := { fClk := 1000000, maxBatch := 2, hostEndian := .little }

theorem test_host_legal : host.legal := by decide
/-- HP2, HP4, HP5, HP6. -/
theorem test_period_of :
    periodOf host 6024 = 166 ∧ periodOf host 2000000 = 1 ∧ periodOf host 2500000 = 0 ∧ periodOfTime host (166 / 1000000) = 166 := by
  decide +kernel
/-- HP1, HP4. -/
theorem test_achieved_rate : achievedRate host 1000 = some 1000 ∧ achievedRate host 0 = none := by decide +kernel

/-- What a procedure returns. -/
def ran {α : Type} (r : Ran α) : Option α :=
  match r with
  | .next (a, _) => some a
  | _ => none

/-- The state a procedure leaves. -/
def left {α : Type} (r : Ran α) : Option State :=
  match r with
  | .next (_, s) => some s
  | _ => none

/-- Cycles in which the environment does nothing but let the host act. -/
def quietEnv (n : Nat) (s : State) : State := { s with env := List.replicate n Inputs.idle }

/-- HP8 in small: two samples, three pops asked for. -/
theorem test_pop_batch : ran (popBatch 4 (quietEnv 4 (ring 6 4))) = some [0x10, 0x11] := by decide
/-- R246: a full buffer, a beat in every cycle: the pop makes room for one, and the two cycles inside `publish` and the one of the
FAULT read drop a sample each. -/
theorem test_tick_overflows_in_publish :
    (left (tickProcedure { host with maxBatch := 1 } "ch" false 2
      { pushing (ring 4 0) with env := List.replicate 4 (beat 0xAA Inputs.idle) })).map (·.ovfCnt) = some 3 := by decide
/-- R247: the bits seen are cleared. -/
theorem test_handle_faults : (left (handleFaults 0 5 (quietEnv 1 { c4 with fault := 7 }))).map (·.fault) = some 2 := by decide
/-- R248: two polls of an empty buffer, and one of a buffer that holds enough. -/
theorem test_wait_for :
    ran (waitFor 1 [0, 1] (quietEnv 3 (ring 0 0))) = some false ∧ ran (waitFor 3 [0, 1] (quietEnv 3 (ring 4 0))) = some true := by
  decide
/-- R149: a load over a committed table fails with STATE_ERR. -/
theorem test_load_table_over_a_committed_one : ran (loadTable [7] (quietEnv 5 (syn .ready 3 0 0))) = some 1 := by decide
/-- R149 in the boot: after the failed load a host that does not go on makes no start. -/
theorem test_boot_stops_after_a_failed_table :
    ran (boot host ⟨[7], 0, 500000, 0, 1000, 1, "ch", false, 0, false⟩ (quietEnv 5 (syn .ready 3 0 0))) = some ⟨1, none, none⟩ := by
  decide
/-- HP10. -/
theorem test_shutdown :
    (left (issueProgram shutdown (quietEnv 2 { syn .running 3 1 0 with acqRun := true }))).map (fun t => (t.synSt, t.acqRun)) =
      some (.stopped, false) := by decide
/-- R247: a failed synthesis start (the CFG_ERR of a period of 0, as in HP5), and no acquisition start after it. -/
theorem test_boot_stops_after_a_failed_start :
    ran (boot host ⟨[7], 0, 0, 0, 1000, 1, "ch", false, 0, false⟩ (quietEnv 9 c4)) = some ⟨0, some 2, none⟩ := by decide

/-! ## The words of the opcode table, placed and run -/

/-- The step of the reset state that presents a word. -/
def fetched (nbits w : Nat) : Option State :=
  match step (State.reset.withFetchWord nbits w) with
  | .next t => some t
  | _ => none

theorem test_fetch_rd_id : (fetched 40 0x0000000000).map (fun t => t.out.hRdata) = some 0x45490006 := by decide
theorem test_fetch_wr_acq_rate : (fetched 40 0x4A000003E8).map (·.acqRate) = some 1000 := by decide
theorem test_place_refuses_bit_39 : (State.reset.withFetchWord 40 0x8000000000).env = [] := by decide
theorem test_fetch_ev_fire : (fetched 8 0x02).map (fun t => (t.synFires, t.dacValid)) = some (1, true) := by decide
theorem test_fetch_ev_dac_accept : (fetched 8 0x0C).map (fun t => (t.out.dacValid, t.dacValid)) = some (true, false) := by decide

/-! ## Witnesses: concrete states and operands that meet all hypotheses of a statement together, clause by clause -/

/-- A state with the coming cycle's port values. -/
def State.coming (s : State) (x : Inputs) : State := { s with env := [x] }

/-- The state after a step that answers a next state. -/
def after (s : State) : State :=
  match step s with
  | .next t => t
  | _ => s

/-- A copy in its second beat, the host popping. -/
def wBusy : State := { acq4 with env := [beat 0x101 (rd 0x06)] }

/-- A full buffer, a beat, no host transaction. -/
def wFull : State := { pushing (ring 4 0) with acqSamples := 4, env := [beat 0xAA Inputs.idle] }

/-- A firing over a pending write that the DAC does not take, the host clearing the flag it sets. -/
def wFire : State := { syn4 with fault := 4, env := [{ wr 0x04 4 with dacReady := false }] }

/-- A refused write: the table is committed. -/
def wRefused : State := { syn .ready 3 0 0 with env := [wr 0x15 7] }

/-- A completion and a start in one cycle, the adapter stopped. -/
def wStart : State := { acq with acqRun := false, env := [dma 0 3 (wr 0x02 1)] }

/-- The parameters at the ends of their ranges (00_scope R6). -/
def wMin : State := { State.reset with cfg := ⟨0, 1, 1, 0, 1⟩ }
def wMax : State := { State.reset with cfg := ⟨15, 16, 16, 16, 32⟩ }

theorem wit_DecodeOfEncode :
    Instr.WellFormed (.rdRsvd 0x02) = true ∧ Instr.WellFormed (.rdRsvd 0x3F) = true ∧
      Instr.WellFormed (.wrIgnored 0x3F 7) = true ∧ Instr.WellFormed (.cmdRsvd 6) = true ∧
      Instr.WellFormed (.evDmaDone 0xFFFFFFFF 0xFFFF) = true := by decide

theorem wit_CatchAllRowsTakeTheRest :
    decodeHtw (hostWord (rd 0x18)) = .rdDacOut ∧ decodeHtw (hostWord (rd 0x19)) = .rdRsvd 0x19 ∧
      decodeHtw (hostWord (wr 0x17 5)) = .wrTblData 5 ∧ decodeHtw (hostWord (wr 0x18 5)) = .wrIgnored 0x18 5 := by decide

theorem wit_CommandDecoding :
    (wr 0x02 5).hWe = true ∧ (wr 0x02 5).hAddr = 0x02 ∧ decodeHtw (hostWord (wr 0x02 5)) = .cmdTblCommit ∧
      decodeHtw (hostWord (wr 0x02 6)) = .cmdRsvd 6 ∧ decodeHtw (hostWord (wr 0x02 15)) = .cmdRsvd 15 ∧
      decodeHtw (hostWord (wr 0x02 16)) = .cmdRsvd 16 := by decide

/-- The hypotheses of `StepRunsTheDecodedHostOperation`, for the operation `i`. -/
def HostOnly (s : State) (i : Instr) : Prop :=
  (nextInputs s).rst = false ∧ (nextInputs s).hSel = true ∧ decodeHtw (hostWord (nextInputs s)) = i ∧
    (nextInputs s).dmaDone = false ∧ s.acqBusy = false ∧ (s.dacValid && (nextInputs s).dacReady) = false ∧
    (s.synSt = .running → s.pcnt ≠ 0)

theorem wit_StepRunsTheDecodedHostOperation_early :
    HostOnly (State.coming (syn .running 3 1 0) (rd 0x12)) .rdSynIdx ∧ runsBeforeEvents .rdSynIdx = true := by
  unfold HostOnly; decide

theorem wit_StepRunsTheDecodedHostOperation_late :
    HostOnly (State.coming (syn .running 3 1 0) (wr 0x02 4)) .cmdSynStop ∧ runsBeforeEvents .cmdSynStop = false := by
  unfold HostOnly; decide

theorem wit_StepRunsTheCyclesOperations :
    (nextInputs (State.coming acq4 { rd 0x03 with rst := true })).rst = true ∧ (nextInputs wBusy).rst = false := by decide

theorem wit_StepIsTheSpecsCycle : wFull.cfg.legal ∧ cnt wFull ≤ capacity wFull.cfg := by decide

theorem wit_ResetCycleOverridesEverything : (nextInputs (State.coming acq4 { rd 0x03 with rst := true })).rst = true := by decide

theorem wit_BusReads :
    State.reset.cfg.legal ∧ wMin.cfg.legal ∧ wMax.cfg.legal ∧
      ((0x02 : RegAddr).toNat ∈ [0x02, 0x0F] ∨ 0x19 ≤ (0x02 : RegAddr).toNat) ∧
      ((0x19 : RegAddr).toNat ∈ [0x02, 0x0F] ∨ 0x19 ≤ (0x19 : RegAddr).toNat) := by decide

theorem wit_RingObservationReads : (ring 0 4).cfg.legal ∧ wMin.cfg.legal ∧ wMax.cfg.legal := by decide

theorem wit_PopReturnsTheOldestSample : 0 < cnt (ring 1 0) ∧ 0 < cnt (ring 7 3) ∧ cnt (ring 6 6) = 0 := by decide

theorem wit_TableReads :
    (syn .ready 3 0 0).tblMem.cellAt (syn .ready 3 0 0).tblAddr.toNat = some 10 ∧
      State.reset.tblMem.cellAt State.reset.tblAddr.toNat = none := by decide

theorem wit_IgnoredWritesChangeNothing :
    (0x00 : RegAddr).toNat ∉ [0x02, 0x04, 0x09, 0x0A, 0x0B, 0x10, 0x11, 0x15, 0x16, 0x17] ∧
      (0x18 : RegAddr).toNat ∉ [0x02, 0x04, 0x09, 0x0A, 0x0B, 0x10, 0x11, 0x15, 0x16, 0x17] := by decide

theorem wit_NopAndReservedCommands :
    ((16 : Word).toNat / 16 ≠ 0 ∨ 0x6 ≤ (16 : Word).toNat % 16) ∧ ((6 : Word).toNat / 16 ≠ 0 ∨ 0x6 ≤ (6 : Word).toNat % 16) := by
  decide

theorem wit_FaultMergeSetWins : (nextInputs wFire).rst = false ∧ step wFire = .next (after wFire) := ⟨by decide, rfl⟩

theorem wit_FaultMergeSetWins_write :
    (nextInputs wFire).hSel = true ∧ (nextInputs wFire).hWe = true ∧ (nextInputs wFire).hAddr = 0x04 := by decide

theorem wit_TableLoadWrites :
    State.reset.synSt = .uninit ∧ State.reset.cfg.legal ∧ wMin.synSt = .uninit ∧ wMin.cfg.legal ∧
      (syn .ready 3 0 0).synSt ≠ .uninit := by decide

theorem wit_TableCommit :
    (syn .ready 3 0 0).synSt ≠ .uninit ∧
      (State.reset.synSt = .uninit ∧ State.reset.tblLen = 0) ∧
      (let s := { State.reset with tblLen := 257 }; s.synSt = .uninit ∧ 2 ^ s.cfg.tblLog2 < s.tblLen.toNat) ∧
      (let s := { State.reset with tblLen := 256 }; s.synSt = .uninit ∧ s.tblLen ≠ 0 ∧ s.tblLen.toNat ≤ 2 ^ s.cfg.tblLog2) := by
  decide

theorem wit_AcquisitionConfigurationWrites : State.reset.acqRun = false ∧ acq.acqRun = true := by decide

theorem wit_AcquisitionStart :
    acq.acqRun = true ∧ (State.reset.acqRun = false ∧ State.reset.acqRate = 0) ∧
      (let s := { acq with acqRun := false, acqBlk := 5 }; s.acqRun = false ∧ 2 ^ s.cfg.capLog2 < s.acqBlk.toNat) ∧
      (let s := { acq with acqRun := false, acqBlk := 4, inp := Inputs.idle }
       s.acqRun = false ∧ s.acqRate ≠ 0 ∧ s.acqBlk ≠ 0 ∧ s.acqBlk.toNat ≤ 2 ^ s.cfg.capLog2 ∧ s.inp.acqCfgOk = true) := by decide

theorem wit_SynthesisConfigurationWrites :
    (syn .stopped 3 0 0).synSt ≠ .running ∧ (syn .running 3 0 0).synSt = .running := by decide

theorem wit_SynthesisStart :
    (syn .running 3 0 0).synSt = .running ∧ State.reset.synSt = .uninit ∧
      (let s := syn .ready 0 0 0; (s.synSt = .ready ∨ s.synSt = .stopped) ∧ s.synPeriod = 0) ∧
      (let s := syn .stopped 1 0 2; (s.synSt = .ready ∨ s.synSt = .stopped) ∧ s.synPeriod ≠ 0) := by decide

theorem wit_SynthesisStop : (syn .running 3 0 0).synSt = .running ∧ State.reset.synSt ≠ .running := by decide

theorem wit_StopsAreIdempotent :
    exec .cmdAcqStop acq = .next { acq with acqRun := false, lastRes := .ok } ∧
      exec .cmdSynStop (syn .running 3 1 0) = .next { syn .running 3 1 0 with synSt := .stopped, lastRes := .ok } :=
  ⟨rfl, rfl⟩

theorem wit_DmaCompletion :
    State.reset.acqRun = false ∧ (acq4.acqRun = true ∧ acq4.acqBusy = true) ∧
      (acq.acqRun = true ∧ acq.acqBusy = false ∧ (3 : Len) ≠ 0 ∧ (3 : Len) = acq.acqBlk ∧ (2 : Len) ≠ acq.acqBlk) := by decide

theorem wit_CopyBeatPushesOneSample :
    (acq4.acqBusy = true ∧ acq4.cpIdx.toNat + 1 ≠ acq4.cpLen.toNat) ∧
      (let s := { acq4 with cpIdx := 2 }; s.acqBusy = true ∧ s.cpIdx.toNat + 1 = s.cpLen.toNat) ∧
      (wFull.acqBusy = true ∧ cnt wFull = 2 ^ wFull.cfg.capLog2) ∧ acq.acqBusy = false := by decide

theorem wit_Firing :
    (let s := { syn4 with inp := Inputs.idle }
     s.synSt = .running ∧ s.pcnt = 0 ∧ (s.dacValid = false ∨ s.inp.dacReady = true)) ∧
      (syn4.synSt = .running ∧ syn4.pcnt = 0 ∧ syn4.dacValid = true ∧ syn4.inp.dacReady = false) := by decide

theorem wit_DacAccept :
    (let s := { syn4 with inp := Inputs.idle }; s.dacValid = true ∧ s.inp.dacReady = true) ∧
      (syn4.dacValid = false ∨ syn4.inp.dacReady = false) := by decide

theorem wit_StepKeepsRingInv : RingInv wFull ∧ step wFull = .next (after wFull) := ⟨by decide, rfl⟩

theorem wit_StepKeepsAcqInv : AcqInv wBusy ∧ step wBusy = .next (after wBusy) := ⟨by decide, rfl⟩

theorem wit_StepKeepsSynInv : SynInv wFire ∧ step wFire = .next (after wFire) := ⟨by decide, rfl⟩

theorem wit_StepKeepsWidthInv : WidthInv wFire ∧ step wFire = .next (after wFire) := ⟨by decide, rfl⟩

theorem wit_StepKeepsPushCountInv : PushCountInv wBusy ∧ step wBusy = .next (after wBusy) := ⟨by decide, rfl⟩

theorem wit_RingRefinesDropOldestQueue :
    RingInv wBusy ∧ (nextInputs wBusy).rst = false ∧ step wBusy = .next (after wBusy) ∧ popReq (nextInputs wBusy) = true :=
  ⟨by decide, by decide, rfl, by decide⟩

theorem wit_OccupiedCountLaw : RingInv wFull ∧ (nextInputs wFull).rst = false ∧ step wFull = .next (after wFull) :=
  ⟨by decide, by decide, rfl⟩

/-- Two pushes into a full buffer. -/
theorem wit_OverflowLaw :
    let s := { wFull with env := [beat 5 Inputs.idle, beat 6 (rd 0x05)] }
    RingInv s ∧ s.acqBusy = true ∧ s.cpIdx.toNat + 2 ≤ s.cpLen.toNat ∧ quietFor 2 s ∧ ∀ x ∈ s.env.take 2, popReq x = false := by
  decide

/-- The last two beats of a copy, with a stop command and a completion meanwhile. -/
theorem wit_CopyCompletes :
    let s := { acq4 with env := [wr 0x02 2, dma 0x200 3 Inputs.idle] }
    AcqInv s ∧ s.acqBusy = true ∧ 2 = s.cpLen.toNat - s.cpIdx.toNat ∧ quietFor 2 s := by decide

theorem wit_FiringCadence :
    let s := { syn .running 3 2 0 with env := [rd 0x12, wr 0x02 3, Inputs.quiet] }
    SynInv s ∧ s.synSt = .running ∧ 2 = s.pcnt.toNat ∧ quietFor 3 s ∧ ∀ x ∈ s.env.take 3, commands x 4 = false := by decide

theorem wit_TableIndexMoves :
    WidthInv wFire ∧ SynInv wFire ∧ (nextInputs wFire).rst = false ∧ step wFire = .next (after wFire) ∧
      reentrantFiring wFire (nextInputs wFire) = true :=
  ⟨by decide, by decide, by decide, rfl, by decide⟩

/-- The other two ways: an accepted firing at the last entry, and a start. -/
theorem wit_TableIndexMoves_advance_and_start :
    (let s := State.coming (syn .running 3 0 2) Inputs.idle
     WidthInv s ∧ SynInv s ∧ acceptedFiring s (nextInputs s) = true ∧ s.idx.toNat + 1 = s.tblLen.toNat) ∧
    (let s := State.coming (syn .stopped 3 1 2) (wr 0x02 3)
     WidthInv s ∧ SynInv s ∧ commands (nextInputs s) 3 = true ∧ s.synSt = .stopped ∧ s.synPeriod ≠ 0) := ⟨by decide, by decide⟩

/-- A period above 1, with a reentrant firing. -/
theorem wit_WrapLaw :
    let s := { syn4 with env := [Inputs.quiet, rd 0x12, wr 0x02 3, Inputs.idle] }
    s.cfg.legal ∧ SynInv s ∧ s.synSt = .running ∧ quietFor 4 s ∧ (∀ x ∈ s.env.take 4, commands x 4 = false) := by decide

/-- A whole period of a table of three, the DAC always ready. -/
theorem wit_WrapLaw_whole_period :
    let s := { syn .running 1 0 1 with env := [Inputs.idle, rd 0x12, wr 0x02 3] }
    s.cfg.legal ∧ SynInv s ∧ s.synSt = .running ∧ s.synPeriod = 1 ∧ quietFor 3 s ∧
      (∀ x ∈ s.env.take 3, commands x 4 = false) ∧ (∀ x ∈ s.env.take 3, x.dacReady = true) ∧
      s.fault.getLsbD 2 = false ∧ (codesWritten 3 s).length = s.tblLen.toNat := by decide

theorem wit_PeriodCounter : (nextInputs wFire).rst = false ∧ step wFire = .next (after wFire) := ⟨by decide, rfl⟩

/-- The last beat of a copy, then a cycle. -/
theorem wit_AcknowledgeFollowsTheCopy :
    let s := { acq4 with cpIdx := 2, env := [beat 7 Inputs.idle, Inputs.idle] }
    (nextInputs s).rst = false ∧ step s = .next (after s) ∧ step (after s) = .next (after (after s)) :=
  ⟨by decide, rfl, rfl⟩

theorem wit_OnlyHostWritesConfigure :
    step wBusy = .next (after wBusy) ∧ (nextInputs wBusy).rst = false ∧
      ((nextInputs wBusy).hSel && (nextInputs wBusy).hWe) = false := ⟨rfl, by decide, by decide⟩

theorem wit_SynthesisStateTransitions : (nextInputs wRefused).rst = false ∧ step wRefused = .next (after wRefused) :=
  ⟨by decide, rfl⟩

theorem wit_CountersCountTheirEvents : RingInv wFull ∧ (nextInputs wFull).rst = false ∧ step wFull = .next (after wFull) :=
  ⟨by decide, by decide, rfl⟩

theorem wit_OnlyResultWritesSetLastRes :
    ((nextInputs wFire).rst = false ∧ step wFire = .next (after wFire) ∧ producesResult (nextInputs wFire) = false) ∧
      ((nextInputs wRefused).rst = false ∧ step wRefused = .next (after wRefused) ∧
        producesResult (nextInputs wRefused) = true ∧
        step { wRefused with lastRes := .badCmd } = .next (after { wRefused with lastRes := .badCmd })) :=
  ⟨⟨by decide, rfl, by decide⟩, by decide, rfl, by decide, rfl⟩

theorem wit_RefusedWriteChangesOnlyLastRes :
    (nextInputs wRefused).rst = false ∧ producesResult (nextInputs wRefused) = true ∧ step wRefused = .next (after wRefused) ∧
      (after wRefused).lastRes ≠ .ok :=
  ⟨by decide, by decide, rfl, by decide⟩

theorem wit_CompletionSeesThePreState :
    (nextInputs wStart).rst = false ∧ wStart.acqBusy = false ∧ step wStart = .next (after wStart) :=
  ⟨by decide, by decide, rfl⟩

/-- Two states with the same sequencer and another adapter, and two with the same adapter and another sequencer. -/
theorem wit_EventPathsAreIndependent :
    (let s₁ := State.coming syn4 (rd 0x12)
     let s₂ := { s₁ with acqRun := true, wp := 3, ovfCnt := 5, env := [dma 0 3 (rd 0x12)] }
     step s₁ = .next (after s₁) ∧ step s₂ = .next (after s₂) ∧ hostPart (nextInputs s₁) = hostPart (nextInputs s₂) ∧
       synPart s₁ = synPart s₂ ∧ (nextInputs s₁).dacReady = (nextInputs s₂).dacReady) ∧
    (let s₁ := wBusy
     let s₂ := { s₁ with synSt := .running, synPeriod := 3, dacValid := true
                         env := [{ beat 0x101 (rd 0x06) with dacReady := false }] }
     step s₁ = .next (after s₁) ∧ step s₂ = .next (after s₂) ∧ hostPart (nextInputs s₁) = hostPart (nextInputs s₂) ∧
       acqPart s₁ = acqPart s₂ ∧ (nextInputs s₁).srcData = (nextInputs s₂).srcData) :=
  ⟨⟨rfl, rfl, rfl, rfl, rfl⟩, rfl, rfl, rfl, rfl, rfl⟩

theorem wit_PendingDacWriteIsStable : (nextInputs wFire).rst = false ∧ step wFire = .next (after wFire) := ⟨by decide, rfl⟩

theorem wit_CursorOwnership : RingInv wBusy ∧ (nextInputs wBusy).rst = false ∧ step wBusy = .next (after wBusy) :=
  ⟨by decide, by decide, rfl⟩

theorem wit_CommittedTableIsLocked : wRefused.synSt ≠ .uninit ∧ step wRefused = .next (after wRefused) := ⟨by decide, rfl⟩

theorem wit_OutputsAreRegistered :
    step wFire = .next (after wFire) ∧
      ((nextInputs wFire).rst || !(nextInputs wFire).hSel || (nextInputs wFire).hWe) = true := ⟨rfl, by decide⟩

/-- The table of G5: N = 4, A = 70, O = 100. -/
theorem wit_GeneratedTableLaws :
    1 ≤ 4 ∧ (0 : Real) ≤ 70 ∧ (0 : Real) ≤ 100 - 70 ∧ (100 + 70 : Real) ≤ vmax Params.defaults ∧ 4 % 4 = 0 := by
  norm_num [vmax, Params.defaults]

end Sys2Proof.Tests
end

section
/-! PROOFS. What one operation can do (`Effect`), what one cycle can do (`step_stages`), and the rule that carries an
invariant of every operation to every step. -/

namespace Sys2Proof.Machine
open Sys2Proof

/-! ## The three kinds of operation -/

/-- Who asks for an operation: the host by a read or a write (30_encoding R80), or an event of the cycle (R81, R82). -/
inductive OpKind where
  | read
  | write
  | event
deriving DecidableEq

/-- The kind of each operation of 30_encoding R85. -/
def kind : Instr → OpKind
  | .rdId | .rdParams | .rdStatus | .rdFault | .rdRbCount | .rdRbData | .rdRbPtrs | .rdOvfCnt | .rdAcqChan
  | .rdAcqRate | .rdAcqBlk | .rdAcqBlks | .rdAcqSamples | .rdAcqCur | .rdSynChan | .rdSynPeriod | .rdSynIdx
  | .rdSynPcnt | .rdSynFires | .rdTblLen | .rdTblAddr | .rdTblData | .rdDacOut | .rdRsvd _ => .read
  | .evReset | .evDmaDone _ _ | .evCopyBeat _ | .evFire | .evDacAccept => .event
  | .wrFault _ | .wrAcqChan _ | .wrAcqRate _ | .wrAcqBlk _ | .wrSynChan _ | .wrSynPeriod _ | .wrTblLen _
  | .wrTblAddr _ | .wrTblData _ | .cmdNop | .cmdAcqStart | .cmdAcqStop | .cmdSynStart | .cmdSynStop | .cmdTblCommit
  | .cmdRsvd _ | .wrIgnored _ _ => .write

/-- A lookup as a comparison, on which a proof can split. -/
theorem lookup_cons_ite {α β : Type} [DecidableEq α] (a k : α) (v : β) (l : List (α × β)) :
    List.lookup a ((k, v) :: l) = if a = k then some v else l.lookup a := by
  rw [List.lookup_cons]
  split <;> simp_all

/-- CMD's decoder as a chain of comparisons (30_encoding R84). -/
theorem decodeCommand_eq (w : Word) :
    decodeCommand w =
      if w = 0 then .cmdNop else if w = 1 then .cmdAcqStart else if w = 2 then .cmdAcqStop
      else if w = 3 then .cmdSynStart else if w = 4 then .cmdSynStop else if w = 5 then .cmdTblCommit
      else .cmdRsvd w := by
  simp only [decodeCommand, commandRows, lookup_cons_ite, List.lookup_nil]
  split_ifs <;> rfl

theorem kind_decodeRead : ∀ a : RegAddr, kind (decodeRead a) = .read := by decide

theorem kind_decodeWrite (a : RegAddr) (w : Word) : kind (decodeWrite a w) = .write := by
  unfold decodeWrite
  rw [decodeCommand_eq]
  split_ifs <;> rfl

/-- The operation of the cycle's transaction, where there is one (`h_sel`). -/
def hostOp (x : Inputs) : Instr := decodeHtw (hostWord x)

theorem hostOp_eq (x : Inputs) : hostOp x = if x.hWe then decodeWrite x.hAddr x.hWdata else decodeRead x.hAddr :=
  decodeHtw_hostWord x

/-- A transaction is a write or a read as `h_we` says, never an event. -/
theorem kind_hostOp (x : Inputs) : kind (hostOp x) = if x.hWe then .write else .read := by
  rw [hostOp_eq]
  cases x.hWe
  · exact kind_decodeRead _
  · exact kind_decodeWrite _ _

theorem kind_hostOp_ne_event (x : Inputs) : kind (hostOp x) ≠ .event := by
  rw [kind_hostOp]
  split <;> simp

/-! ## What one operation can do -/

/-- The state conditions under which a host write is performed; otherwise it is refused (60_exceptions R281, R282). -/
def accepts (s : State) : Instr → Bool
  | .wrAcqChan _ | .wrAcqRate _ | .wrAcqBlk _ => !s.acqRun
  | .wrSynChan _ | .wrSynPeriod _ => !synLocked s
  | .wrTblLen _ | .wrTblAddr _ | .wrTblData _ => !tblLocked s
  | .cmdAcqStart => !s.acqRun && acqCfgValid s && s.inp.acqCfgOk
  | .cmdSynStart => s.synSt ≠ .running && s.synSt ≠ .uninit && s.synPeriod ≠ 0
  | .cmdTblCommit => !tblLocked s && tblLenValid s
  | _ => true

theorem accepts_cmdAcqStart (s : State) : accepts s .cmdAcqStart = (!s.acqRun && acqCfgValid s && s.inp.acqCfgOk) := rfl

theorem accepts_cmdSynStart (s : State) :
    accepts s .cmdSynStart = (s.synSt ≠ .running && s.synSt ≠ .uninit && s.synPeriod ≠ 0) := rfl

theorem accepts_cmdTblCommit (s : State) : accepts s .cmdTblCommit = (!tblLocked s && tblLenValid s) := rfl

/-- The next states of an operation, one constructor per outcome, with the condition of the outcome. -/
inductive Effect (s : State) : Instr → State → Prop
  -- host reads
  | read {i : Instr} (v : Word) (hk : kind i = .read) (hi : i = .rdRbData → rbEmpty s = true) : Effect s i (s.setRdata v)
  | pop (he : rbEmpty s = false) : Effect s .rdRbData ((rbPop s).setRdata (validWord (rbFront s)))
  -- host writes
  | refused {i : Instr} {c : ResultCode} (hk : kind i = .write) (ha : accepts s i = false) (hc : c ≠ .ok) :
      Effect s i (s.setRes c)
  | ignored (a : RegAddr) (w : Word) : Effect s (.wrIgnored a w) s
  | nop : Effect s .cmdNop (s.setRes .ok)
  | reserved (w : Word) : Effect s (.cmdRsvd w) (s.setRes .badCmd)
  | clearFault (m : FaultBits) : Effect s (.wrFault m) { s with fault := s.fault &&& ~~~m }
  | acqChan (c : Chan) (hr : s.acqRun = false) : Effect s (.wrAcqChan c) { s with acqChan := c, lastRes := .ok }
  | acqRate (r : Word) (hr : s.acqRun = false) : Effect s (.wrAcqRate r) { s with acqRate := r, lastRes := .ok }
  | acqBlk (b : Len) (hr : s.acqRun = false) : Effect s (.wrAcqBlk b) { s with acqBlk := b, lastRes := .ok }
  | acqStart (hr : s.acqRun = false) (hv : acqCfgValid s = true) (hc : s.inp.acqCfgOk = true) :
      Effect s .cmdAcqStart { s with acqRun := true, lastRes := .ok }
  | acqStop : Effect s .cmdAcqStop { s with acqRun := false, lastRes := .ok }
  | synChan (c : Chan) (hs : s.synSt ≠ .running) : Effect s (.wrSynChan c) { s with synChan := c, lastRes := .ok }
  | synPeriod (p : Word) (hs : s.synSt ≠ .running) : Effect s (.wrSynPeriod p) { s with synPeriod := p, lastRes := .ok }
  | synStart (hr : s.synSt ≠ .running) (hu : s.synSt ≠ .uninit) (hp : s.synPeriod ≠ 0) :
      Effect s .cmdSynStart { s with synSt := .running, idx := 0, pcnt := s.synPeriod - 1, lastRes := .ok }
  | synStop : Effect s .cmdSynStop { s with synSt := if s.synSt = .running then .stopped else s.synSt, lastRes := .ok }
  | tblLen (n : BitVec 17) (hu : s.synSt = .uninit) : Effect s (.wrTblLen n) { s with tblLen := n, lastRes := .ok }
  | tblAddr (a : Word) (hu : s.synSt = .uninit) :
      Effect s (.wrTblAddr a) { s with tblAddr := tblAddrOf s.cfg a, lastRes := .ok }
  | tblData (v : Word) (hu : s.synSt = .uninit) :
      Effect s (.wrTblData v) { s with
        tblMem := s.tblMem.store s.tblAddr.toNat (satVmax s.cfg v)
        tblAddr := nextTblAddr s.cfg s.tblAddr
        lastRes := .ok }
  | commit (hu : s.synSt = .uninit) (hv : tblLenValid s = true) :
      Effect s .cmdTblCommit { s with synSt := .ready, lastRes := .ok }
  -- events
  | reset : Effect s .evReset { State.reset with
      cfg := s.cfg, rbMem := s.rbMem, tblMem := s.tblMem, env := s.env, inp := s.inp, out := s.out, cycle := s.cycle }
  | blockIgnored (p : SrcAddr) (l : Len) (hr : s.acqRun = false) : Effect s (.evDmaDone p l) s
  | blockReentry (p : SrcAddr) (l : Len) (hr : s.acqRun = true) (hb : s.acqBusy = true) :
      Effect s (.evDmaDone p l) (s.raise acqReentry)
  | blockAccepted (p : SrcAddr) (l : Len) (hr : s.acqRun = true) (hb : s.acqBusy = false) :
      Effect s (.evDmaDone p l) (acceptBlock p l (checkDesync l s))
  | noBeat (d : Sample) (hb : s.acqBusy = false) : Effect s (.evCopyBeat d) s
  | beat (d : Sample) (hb : s.acqBusy = true) :
      Effect s (.evCopyBeat d) (advanceCopy { rbPush s d with acqSamples := s.acqSamples + 1 })
  | noFiring (hf : fireCond s = false) : Effect s .evFire s
  | firingReentry (hf : fireCond s = true) (hd : (s.dacValid && !s.inp.dacReady) = true) :
      Effect s .evFire (({ s with pcnt := s.synPeriod - 1 } : State).raise synReentry)
  | firingAccepted (hf : fireCond s = true) (hd : (s.dacValid && !s.inp.dacReady) = false) :
      Effect s .evFire (acceptFiring { s with pcnt := s.synPeriod - 1 })
  | noDacAccept (hd : (s.dacValid && s.inp.dacReady) = false) : Effect s .evDacAccept s
  | dacAccept (hd : (s.dacValid && s.inp.dacReady) = true) : Effect s .evDacAccept { s with dacValid := false }

theorem execRdRbData_effect {s t : State} (h : execRdRbData s = .next t) : Effect s .rdRbData t := by
  unfold execRdRbData at h
  split at h
  next he => exact readReg_next.mp h ▸ .read 0 rfl fun _ => he
  next he => exact readReg_next.mp h ▸ .pop (by simpa using he)

theorem execCmdAcqStart_effect {s t : State} (h : execCmdAcqStart s = .next t) : Effect s .cmdAcqStart t := by
  unfold execCmdAcqStart at h
  split_ifs at h with hr hv hc <;> cases h
  · exact .refused rfl (by simp [accepts_cmdAcqStart, hr]) nofun
  · exact .refused rfl (by simp_all [accepts_cmdAcqStart]) nofun
  · exact .refused rfl (by simp_all [accepts_cmdAcqStart]) nofun
  · exact .acqStart (by simpa using hr) (by simpa using hv) (by simpa using hc)

theorem execCmdSynStart_effect {s t : State} (h : execCmdSynStart s = .next t) : Effect s .cmdSynStart t := by
  unfold execCmdSynStart at h
  split_ifs at h with hr hu hp <;> cases h
  · exact .refused rfl (by simp [accepts_cmdSynStart, hr]) nofun
  · exact .refused rfl (by simp [accepts_cmdSynStart, hu]) nofun
  · exact .refused rfl (by simp [accepts_cmdSynStart, hp]) nofun
  · exact .synStart hr hu hp

theorem execCmdTblCommit_effect {s t : State} (h : execCmdTblCommit s = .next t) : Effect s .cmdTblCommit t := by
  unfold execCmdTblCommit at h
  split_ifs at h with hl hv <;> cases h
  · exact .refused rfl (by simp [accepts_cmdTblCommit, hl]) nofun
  · exact .refused rfl (by simp_all [accepts_cmdTblCommit]) nofun
  · exact .commit (by simpa [tblLocked] using hl) (by simpa using hv)

theorem execEvDmaDone_effect {p : SrcAddr} {l : Len} {s t : State} (h : execEvDmaDone p l s = .next t) :
    Effect s (.evDmaDone p l) t := by
  unfold execEvDmaDone at h
  split_ifs at h with hr hb <;> cases h
  · exact .blockIgnored p l (by simpa using hr)
  · exact .blockReentry p l (by simpa using hr) hb
  · exact .blockAccepted p l (by simpa using hr) (by simpa using hb)

theorem execEvCopyBeat_effect {d : Sample} {s t : State} (h : execEvCopyBeat d s = .next t) :
    Effect s (.evCopyBeat d) t := by
  unfold execEvCopyBeat at h
  split_ifs at h with hb <;> cases h
  · exact .beat d hb
  · exact .noBeat d (by simpa using hb)

theorem execEvFire_effect {s t : State} (h : execEvFire s = .next t) : Effect s .evFire t := by
  unfold execEvFire at h
  split_ifs at h with hf hd <;> cases h
  · exact .firingReentry hf hd
  · exact .firingAccepted hf (by simpa using hd)
  · exact .noFiring (by simpa using hf)

theorem execEvDacAccept_effect {s t : State} (h : execEvDacAccept s = .next t) : Effect s .evDacAccept t := by
  unfold execEvDacAccept at h
  split_ifs at h with hd <;> cases h
  · exact .dacAccept hd
  · exact .noDacAccept (by simpa using hd)

/-- A write that a lock guards is refused with STATE_ERR or performed (60_exceptions R282). -/
theorem writeUnless_effect {i : Instr} {locked : Bool} {s t u : State} (hk : kind i = .write)
    (ha : accepts s i = !locked) (hp : locked = false → Effect s i (t.setRes .ok))
    (h : writeUnless locked s t = .next u) : Effect s i u := by
  rcases writeUnless_next.mp h with ⟨hl, rfl⟩ | ⟨hl, rfl⟩
  · exact .refused hk (by simp [ha, hl]) nofun
  · exact hp hl

/-- Everything an operation can do. -/
theorem exec_effect {i : Instr} {s t : State} (h : exec i s = .next t) : Effect s i t := by
  cases i with
  | rdRbData => exact execRdRbData_effect h
  | wrFault m => cases h; exact .clearFault m
  | wrAcqChan c => exact writeUnless_effect rfl rfl (.acqChan c) h
  | wrAcqRate r => exact writeUnless_effect rfl rfl (.acqRate r) h
  | wrAcqBlk b => exact writeUnless_effect rfl rfl (.acqBlk b) h
  | wrSynChan c => exact writeUnless_effect rfl rfl (fun hl => .synChan c (by simpa [synLocked] using hl)) h
  | wrSynPeriod p => exact writeUnless_effect rfl rfl (fun hl => .synPeriod p (by simpa [synLocked] using hl)) h
  | wrTblLen n => exact writeUnless_effect rfl rfl (fun hl => .tblLen n (by simpa [tblLocked] using hl)) h
  | wrTblAddr a => exact writeUnless_effect rfl rfl (fun hl => .tblAddr a (by simpa [tblLocked] using hl)) h
  | wrTblData v => exact writeUnless_effect rfl rfl (fun hl => .tblData v (by simpa [tblLocked] using hl)) h
  | cmdNop => cases h; exact .nop
  | cmdAcqStart => exact execCmdAcqStart_effect h
  | cmdAcqStop => cases h; exact .acqStop
  | cmdSynStart => exact execCmdSynStart_effect h
  | cmdSynStop => cases h; exact .synStop
  | cmdTblCommit => exact execCmdTblCommit_effect h
  | cmdRsvd w => cases h; exact .reserved w
  | wrIgnored a w => cases h; exact .ignored a w
  | evReset => cases h; exact .reset
  | evDmaDone p l => exact execEvDmaDone_effect h
  | evCopyBeat d => exact execEvCopyBeat_effect h
  | evFire => exact execEvFire_effect h
  | evDacAccept => exact execEvDacAccept_effect h
  | _ => exact readReg_next.mp h ▸ .read _ rfl nofun

/-! ## What one cycle can do -/

/-- Performs an operation where its condition holds. -/
def execIf (b : Bool) (i : Instr) (s : State) : Host.Outcome State Fault Refusal := if b then exec i s else .next s

theorem execIf_next {b : Bool} {i : Instr} {s t : State} :
    execIf b i s = .next t ↔ (b = true ∧ exec i s = .next t) ∨ (b = false ∧ t = s) := by
  cases b <;> simp [execIf, eq_comm]

theorem runOps_ite (b : Bool) (i : Instr) : runOps (if b then [i] else []) = execIf b i := by
  funext s
  cases b <;> simp [execIf]

/-- `runOps_append` as an equation of functions, so that it rewrites the rest of a cycle. -/
theorem runOps_append_fun (xs ys : List Instr) : runOps (xs ++ ys) = fun s => andThen (runOps xs s) (runOps ys) :=
  funext (runOps_append xs ys)

/-- The part of the cycle's transaction that runs at its place in the cycle. -/
theorem runOps_filter_hostOps (q : Instr → Bool) (x : Inputs) (s : State) :
    runOps ((hostOps x).filter q) s = execIf (x.hSel && q (hostOp x)) (hostOp x) s := by
  have hops : hostOps x = if x.hSel then [hostOp x] else [] := rfl
  rw [← runOps_ite, hops]
  cases x.hSel <;> cases hq : q (hostOp x) <;> simp [hq]

/-- The events of a cycle without reset, run one after another. -/
theorem runOps_eventOps {s : State} (h : s.inp.rst = false) (t : State) :
    runOps (eventOps s) t =
      andThen (execIf s.inp.dmaDone (.evDmaDone s.inp.dmaPtr s.inp.dmaLen) t) fun t =>
      andThen (execIf s.acqBusy (.evCopyBeat s.inp.srcData) t) fun t =>
      andThen (execIf (s.dacValid && s.inp.dacReady) .evDacAccept t) fun t => execIf (fireCond s) .evFire t := by
  rw [eventOps_eq s h]
  simp only [runOps_append_fun, runOps_ite, andThen_assoc]

/-- A cycle without reset, stage by stage (40_cycle_and_bus R110 in the order of Machine/Cycle.lean). -/
theorem step_stages {s t : State} (hr : (nextInputs s).rst = false) (h : step s = .next t) :
    ∃ a b c d e : State,
      execIf ((nextInputs s).hSel && runsBeforeEvents (hostOp (nextInputs s))) (hostOp (nextInputs s))
        (beginCycle s) = .next a ∧
      execIf (nextInputs s).dmaDone (.evDmaDone (nextInputs s).dmaPtr (nextInputs s).dmaLen) (tick a) = .next b ∧
      execIf s.acqBusy (.evCopyBeat (nextInputs s).srcData) b = .next c ∧
      execIf (s.dacValid && (nextInputs s).dacReady) .evDacAccept c = .next d ∧
      execIf (fireCond s) .evFire d = .next e ∧
      execIf ((nextInputs s).hSel && !runsBeforeEvents (hostOp (nextInputs s))) (hostOp (nextInputs s)) e = .next t := by
  rw [step_of_no_reset s hr] at h
  simp only [runOps_filter_hostOps, runOps_eventOps (s := beginCycle s) hr, andThen_assoc] at h
  obtain ⟨a, ha, h⟩ := andThen_eq_next.mp h
  obtain ⟨b, hb, h⟩ := andThen_eq_next.mp h
  obtain ⟨c, hc, h⟩ := andThen_eq_next.mp h
  obtain ⟨d, hd, h⟩ := andThen_eq_next.mp h
  obtain ⟨e, he, h⟩ := andThen_eq_next.mp h
  exact ⟨a, b, c, d, e, ha, hb, hc, hd, he, h⟩

/-- A cycle with reset is EV_RESET alone (70_reset_and_hazards R310). -/
theorem step_of_reset {s : State} (hr : (nextInputs s).rst = true) : step s = exec .evReset (beginCycle s) := by
  simp [step, runCycle, hr]

/-! ## Invariants -/

theorem runOps_preserves {P : State → Prop} (hexec : ∀ i s t, P s → exec i s = .next t → P t) {is : List Instr}
    {s t : State} (hs : P s) (h : runOps is s = .next t) : P t := by
  induction is generalizing s with
  | nil => cases h; exact hs
  | cons i is ih =>
    rw [runOps_cons] at h
    obtain ⟨u, hu, h⟩ := andThen_eq_next.mp h
    exact ih (hexec i s u hs hu) h

/-- What the begin of a cycle, its per-cycle changes and every operation keep, every step keeps. -/
theorem step_preserves {P : State → Prop} (hbegin : ∀ s, P s → P (beginCycle s)) (htick : ∀ s, P s → P (tick s))
    (hexec : ∀ i s t, P s → exec i s = .next t → P t) {s t : State} (hs : P s) (h : step s = .next t) : P t := by
  unfold step runCycle at h
  split at h
  · exact runOps_preserves hexec (hbegin s hs) h
  · obtain ⟨a, ha, h⟩ := andThen_eq_next.mp h
    obtain ⟨e, he, h⟩ := andThen_eq_next.mp h
    have hPa := runOps_preserves hexec (hbegin s hs) ha
    have hPe := runOps_preserves hexec (htick a hPa) he
    exact runOps_preserves hexec hPe h

end Sys2Proof.Machine
end

section
/-! PROOFS. The invariants of the adapter, the sequencer and the widths (Safety.lean): every operation keeps them, so every
step does. -/

namespace Sys2Proof.Machine
open Sys2Proof

/-! ## The adapter -/

/-- A beat moves the copy counter on inside the block, or ends the copy. -/
theorem advanceCopy_keeps_acqInv {s : State} (hb : s.acqBusy = true) (hs : AcqInv s) : AcqInv (advanceCopy s) := by
  obtain ⟨hlen, hidx⟩ := hs.1 hb
  unfold advanceCopy
  split
  next => exact ⟨nofun, fun _ => rfl⟩
  next hlast =>
    have hnext : (s.cpIdx + 1).toNat < s.cpLen.toNat := by bv_omega
    exact ⟨fun _ => ⟨hlen, hnext⟩, fun hi => by simp [hb] at hi⟩

/-- A block with samples starts its copy at index 0; one without leaves the copy registers. -/
theorem acceptBlock_keeps_acqInv (p : SrcAddr) (l : Len) {s : State} (hs : AcqInv s) : AcqInv (acceptBlock p l s) := by
  unfold acceptBlock
  split
  next => exact hs
  next hl =>
    have hpos : 0 < l.toNat := by bv_omega
    exact ⟨fun _ => ⟨hpos, hpos⟩, nofun⟩

/-- The desync check keeps what the raised flag keeps. -/
theorem checkDesync_preserves {P : State → Prop} (l : Len) {s : State} (hs : P s) (hraise : P (s.raise acqDesync)) :
    P (checkDesync l s) := by
  unfold checkDesync
  split
  · exact hraise
  · exact hs

theorem exec_keeps_acqInv (i : Instr) (s t : State) (hs : AcqInv s) (h : exec i s = .next t) : AcqInv t := by
  cases exec_effect h with
  | reset => exact ⟨nofun, fun _ => rfl⟩
  | blockAccepted p l => exact acceptBlock_keeps_acqInv p l (checkDesync_preserves l hs hs)
  | beat d hb => exact advanceCopy_keeps_acqInv hb hs
  | _ => exact hs

/-- Settles O35: a beat and an accepted block keep the copy counter inside the block, and no other operation but reset
writes it. -/
theorem stepKeepsAcqInv : Obligations.StepKeepsAcqInv :=
  fun _ _ hs h => step_preserves (fun _ h => h) (fun _ h => h) exec_keeps_acqInv hs h

/-! ## The sequencer -/

/-- The period counter stays below the period when it counts down. -/
theorem tick_keeps_synInv (s : State) (hs : SynInv s) : SynInv (tick s) := by
  obtain ⟨htbl, hidx, hrun⟩ := hs
  refine ⟨htbl, hidx, fun hr => ?_⟩
  obtain ⟨hper, hcnt⟩ := hrun hr
  refine ⟨hper, ?_⟩
  rw [tick_pcnt, tick_synPeriod]
  split
  next hc => obtain ⟨-, hne⟩ := hc; bv_omega
  next => exact hcnt

/-- A reloaded period counter is below the period. -/
theorem reload_lt {p : Word} (hp : 1 ≤ p.toNat) : (p - 1).toNat < p.toNat := by bv_omega

/-- The index stays below the length: it is compared with the length before it is advanced (44_synthesis_sequencer R210). -/
theorem nextIdx_lt {s : State} (h : s.idx.toNat < s.tblLen.toNat) : (nextIdx s).toNat < s.tblLen.toNat := by
  unfold nextIdx
  split
  next => exact Nat.zero_lt_of_lt h
  next hne =>
    have hle : (s.idx + 1).toNat ≤ s.idx.toNat + 1 := by
      rw [BitVec.toNat_add]
      exact Nat.mod_le _ _
    omega

theorem fireCond_eq_true {s : State} : fireCond s = true ↔ s.synSt = .running ∧ s.pcnt = 0 := by
  simp [fireCond]

/-- A firing, accepted or not, reloads the period counter. -/
theorem reload_keeps_synInv {s : State} (hf : fireCond s = true) (hs : SynInv s) :
    SynInv { s with pcnt := s.synPeriod - 1 } := by
  obtain ⟨htbl, hidx, hrun⟩ := hs
  obtain ⟨hper, -⟩ := hrun (fireCond_eq_true.mp hf).1
  exact ⟨htbl, hidx, fun _ => ⟨hper, reload_lt hper⟩⟩

theorem acceptFiring_keeps_synInv {s : State} (hr : s.synSt = .running) (hs : SynInv s) : SynInv (acceptFiring s) := by
  obtain ⟨htbl, -, hrun⟩ := hs
  refine ⟨fun hu => ?_, fun hu => ?_, hrun⟩
  · obtain ⟨hpos, hdepth, hlt⟩ := htbl hu
    exact ⟨hpos, hdepth, nextIdx_lt hlt⟩
  · simp [hr] at hu

theorem synStart_keeps_synInv {s : State} (hu : s.synSt ≠ .uninit) (hp : s.synPeriod ≠ 0) (hs : SynInv s) :
    SynInv { s with synSt := .running, idx := 0, pcnt := s.synPeriod - 1, lastRes := .ok } := by
  obtain ⟨hpos, hdepth, -⟩ := hs.1 hu
  have hper : 1 ≤ s.synPeriod.toNat := by bv_omega
  exact ⟨fun _ => ⟨hpos, hdepth, hpos⟩, nofun, fun _ => ⟨hper, reload_lt hper⟩⟩

/-- A stop leaves the table committed. -/
theorem synStop_keeps_synInv {s : State} (hs : SynInv s) :
    SynInv { s with synSt := if s.synSt = .running then .stopped else s.synSt, lastRes := .ok } := by
  split
  next hr => exact ⟨fun _ => hs.1 (by simp [hr]), nofun, nofun⟩
  next => exact hs

theorem tblLenValid_eq_true {s : State} :
    tblLenValid s = true ↔ s.tblLen ≠ 0 ∧ s.tblLen.toNat ≤ tblDepth s.cfg := by
  simp [tblLenValid]

/-- A commit takes a length in range, and the index of an uncommitted table is 0. -/
theorem commit_keeps_synInv {s : State} (hu : s.synSt = .uninit) (hv : tblLenValid s = true) (hs : SynInv s) :
    SynInv { s with synSt := .ready, lastRes := .ok } := by
  obtain ⟨hne, hdepth⟩ := tblLenValid_eq_true.mp hv
  have hpos : 1 ≤ s.tblLen.toNat := by bv_omega
  refine ⟨fun _ => ⟨hpos, hdepth, ?_⟩, nofun, nofun⟩
  show s.idx.toNat < s.tblLen.toNat
  rw [hs.2.1 hu]
  exact hpos

theorem exec_keeps_synInv (i : Instr) (s t : State) (hs : SynInv s) (h : exec i s = .next t) : SynInv t := by
  cases exec_effect h with
  | synPeriod p hne => exact ⟨hs.1, hs.2.1, fun hr => absurd hr hne⟩
  | synStart _ hu hp => exact synStart_keeps_synInv hu hp hs
  | synStop => exact synStop_keeps_synInv hs
  | tblLen n hu => exact ⟨fun hn => absurd hu hn, hs.2⟩
  | commit hu hv => exact commit_keeps_synInv hu hv hs
  | reset => exact ⟨nofun, fun _ => rfl, nofun⟩
  | blockAccepted p l => simpa [SynInv] using hs
  | beat d => simpa [SynInv] using hs
  | firingReentry hf => exact reload_keeps_synInv (s := s) hf hs
  | firingAccepted hf =>
    exact acceptFiring_keeps_synInv (fireCond_eq_true.mp hf).1 (reload_keeps_synInv (s := s) hf hs)
  | _ => exact hs

/-- Settles O36: the counter and the index are compared before they move, and the length and the period are locked while they
bound them. -/
theorem stepKeepsSynInv : Obligations.StepKeepsSynInv :=
  fun _ _ hs h => step_preserves (fun _ h => h) tick_keeps_synInv exec_keeps_synInv hs h

/-! ## The widths -/

/-- A store keeps the canonical form of a RAM, and a property of all its cells that the stored cell has. -/
theorem Memory.store_keeps {m : Memory} {a : Nat} {v : BitVec 16} {Q : MemCell → Prop}
    (hm : Memory.wf m ∧ ∀ c ∈ m, Q c) (hq : Q (a, v)) :
    Memory.wf (Memory.store m a v) ∧ ∀ c ∈ Memory.store m a v, Q c := by
  obtain ⟨hwf, hall⟩ := hm
  refine ⟨Memory.wf_store a v hwf, fun c hc => ?_⟩
  rcases Memory.mem_store hc with rfl | hc
  · exact hq
  · exact hall c hc

theorem slotOf_lt (p : Params) (q : Pointer) : slotOf p q < capacity p := Nat.mod_lt _ (capacity_pos p)

theorem tblDepth_pos (p : Params) : 0 < tblDepth p := Nat.two_pow_pos _

theorem nextTblAddr_lt (p : Params) (a : BitVec 16) : (nextTblAddr p a).toNat < tblDepth p := by
  rw [nextTblAddr, BitVec.toNat_ofNat]
  exact (Nat.mod_le _ _).trans_lt (Nat.mod_lt _ (tblDepth_pos p))

theorem tblAddrOf_lt (p : Params) (w : Word) : (tblAddrOf p w).toNat < tblDepth p := by
  rw [tblAddrOf, BitVec.toNat_ofNat]
  exact (Nat.mod_le _ _).trans_lt (Nat.mod_lt _ (tblDepth_pos p))

/-- An entry of the table reads as a DAC code, written or not (70_reset_and_hazards R313). -/
theorem tblRead_le_vmax {s : State} (h : ∀ c ∈ s.tblMem, c.1 < tblDepth s.cfg ∧ c.2.toNat ≤ vmax s.cfg) (i : Nat) :
    (tblRead s i).toNat ≤ vmax s.cfg := by
  unfold tblRead
  cases hc : s.tblMem.cellAt i with
  | none => exact Nat.le_sub_one_of_lt (truncTo_toNat_lt _ _)
  | some v =>
    obtain ⟨-, hv⟩ := h _ (Memory.mem_of_cellAt hc)
    exact hv

theorem rbPush_keeps_widthInv (d : Sample) {s : State} (hs : WidthInv s) : WidthInv (rbPush s d) := by
  obtain ⟨hcfg, hrb, hrest⟩ := hs
  exact ⟨hcfg, Memory.store_keeps hrb ⟨slotOf_lt _ _, truncTo_toNat_lt _ _⟩, hrest⟩

theorem advanceCopy_keeps_widthInv {s : State} (hs : WidthInv s) : WidthInv (advanceCopy s) := by
  unfold advanceCopy
  split <;> exact hs

theorem acceptBlock_keeps_widthInv (p : SrcAddr) (l : Len) {s : State} (hs : WidthInv s) :
    WidthInv (acceptBlock p l s) := by
  unfold acceptBlock
  split
  next => exact hs
  next =>
    obtain ⟨hcfg, hrb, htbl, haddr, -, hdac⟩ := hs
    exact ⟨hcfg, hrb, htbl, haddr, truncTo_toNat_lt _ _, hdac⟩

theorem exec_keeps_widthInv (i : Instr) (s t : State) (hs : WidthInv s) (h : exec i s = .next t) : WidthInv t := by
  obtain ⟨hcfg, hrb, htbl, haddr, hbase, hdac⟩ := hs
  cases exec_effect h with
  | tblAddr a => exact ⟨hcfg, hrb, htbl, tblAddrOf_lt _ _, hbase, hdac⟩
  | tblData v =>
    exact ⟨hcfg, hrb, Memory.store_keeps htbl ⟨haddr, satVmax_le _ _⟩, nextTblAddr_lt _ _, hbase, hdac⟩
  | reset => exact ⟨hcfg, hrb, htbl, tblDepth_pos _, Nat.two_pow_pos _, Nat.zero_le _⟩
  | blockAccepted p l =>
    have hs : WidthInv s := ⟨hcfg, hrb, htbl, haddr, hbase, hdac⟩
    exact acceptBlock_keeps_widthInv p l (checkDesync_preserves l hs hs)
  | beat d =>
    have hpush : WidthInv (rbPush s d) := rbPush_keeps_widthInv d ⟨hcfg, hrb, htbl, haddr, hbase, hdac⟩
    exact advanceCopy_keeps_widthInv hpush
  | firingAccepted => exact ⟨hcfg, hrb, htbl, haddr, hbase, tblRead_le_vmax htbl.2 _⟩
  | _ => exact ⟨hcfg, hrb, htbl, haddr, hbase, hdac⟩

/-- Settles O37: what is stored in a RAM or a register of parameter width is cut to that width where it is stored. -/
theorem stepKeepsWidthInv : Obligations.StepKeepsWidthInv :=
  fun _ _ hs h => step_preserves (fun _ h => h) (fun _ h => h) exec_keeps_widthInv hs h

end Sys2Proof.Machine
end

section
/-! PROOFS. The ring buffer's invariant. The occupied slots are a window of `cnt` slots from `rp` on; `wp` is its end. A push
lengthens the window or, in a full buffer, moves it on by one slot; a pop shortens it at its start. -/

namespace Sys2Proof.Machine
open Sys2Proof

/-- The window's end, counting modulo `2C`. -/
theorem wp_eq_of_cnt {s : State} (hw : s.wp.toNat < 2 * capacity s.cfg) (hr : s.rp.toNat < 2 * capacity s.cfg) :
    s.wp.toNat = (s.rp.toNat + cnt s) % (2 * capacity s.cfg) := by
  unfold cnt
  generalize 2 * capacity s.cfg = n at hw hr ⊢
  have hsum : s.rp.toNat + (s.wp.toNat + (n - s.rp.toNat)) = s.wp.toNat + n := by omega
  rw [Nat.mod_eq_of_lt hr, Nat.add_mod_mod, hsum, Nat.add_mod_right, Nat.mod_eq_of_lt hw]

/-- The window's length is what its end says, where that is below `2C`. -/
theorem cnt_of_wp_eq {s : State} {n : Nat} (hr : s.rp.toNat < 2 * capacity s.cfg) (hn : n < 2 * capacity s.cfg)
    (hw : s.wp.toNat = (s.rp.toNat + n) % (2 * capacity s.cfg)) : cnt s = n := by
  unfold cnt
  rw [hw]
  generalize 2 * capacity s.cfg = m at hr hn ⊢
  have hsum : s.rp.toNat + n + (m - s.rp.toNat) = n + m := by omega
  rw [Nat.mod_eq_of_lt hr, Nat.mod_add_mod, hsum, Nat.add_mod_right, Nat.mod_eq_of_lt hn]

/-- A state whose window is in range and written meets the invariant. -/
theorem ringInv_of_window {s : State} {n : Nat} (hcfg : s.cfg.legal) (hr : s.rp.toNat < 2 * capacity s.cfg)
    (hn : n ≤ capacity s.cfg) (hw : s.wp.toNat = (s.rp.toNat + n) % (2 * capacity s.cfg))
    (hslots : ∀ k < n, (s.rbMem.cellAt ((s.rp.toNat + k) % capacity s.cfg)).isSome) : RingInv s := by
  have hpos := capacity_pos s.cfg
  have hcnt : cnt s = n := cnt_of_wp_eq hr (by omega) hw
  refine ⟨hcfg, ?_, hr, hcnt ▸ hn, hcnt ▸ hslots⟩
  rw [hw]
  exact Nat.mod_lt _ (by omega)

theorem nextPtr_lt {p : Params} (q : Pointer) (h : p.legal) : (nextPtr p q).toNat < 2 * capacity p := by
  have hpos := capacity_pos p
  rw [nextPtr_toNat q h]
  exact Nat.mod_lt _ (by omega)

/-- Counting on from an advanced pointer is counting on from the pointer itself, one more. -/
theorem nextPtr_add_mod {p : Params} (q : Pointer) (k : Nat) (h : p.legal) :
    ((nextPtr p q).toNat + k) % (2 * capacity p) = (q.toNat + (k + 1)) % (2 * capacity p) := by
  rw [nextPtr_toNat q h, Nat.mod_add_mod, Nat.add_assoc, Nat.add_comm 1 k]

/-- The same for the slots: a slot is a count modulo `2C` taken modulo `C`. -/
theorem nextPtr_add_slot {p : Params} (q : Pointer) (k : Nat) (h : p.legal) :
    ((nextPtr p q).toNat + k) % capacity p = (q.toNat + (k + 1)) % capacity p := by
  rw [← Nat.mod_mul_left_mod _ 2, nextPtr_add_mod q k h, Nat.mod_mul_left_mod]

/-- The slot a push writes is the first one past the window. -/
theorem slotOf_wp {s : State} (hs : RingInv s) : slotOf s.cfg s.wp = (s.rp.toNat + cnt s) % capacity s.cfg := by
  obtain ⟨-, hw, hr, -, -⟩ := hs
  rw [slotOf, wp_eq_of_cnt hw hr, Nat.mod_mul_left_mod]

theorem rbEmpty_eq_false {s : State} : rbEmpty s = false ↔ 0 < cnt s := by
  simp [rbEmpty, Nat.pos_iff_ne_zero]

theorem rbFull_eq_true {s : State} : rbFull s = true ↔ cnt s = capacity s.cfg := by
  simp [rbFull]

/-! ## A pop -/

/-- The window after a pop: it ends where it ended, and is one slot shorter. -/
theorem wp_eq_of_pop {s : State} (hs : RingInv s) (hne : 0 < cnt s) :
    s.wp.toNat = ((nextPtr s.cfg s.rp).toNat + (cnt s - 1)) % (2 * capacity s.cfg) := by
  obtain ⟨hcfg, hw, hr, -, -⟩ := hs
  rw [nextPtr_add_mod _ _ hcfg, Nat.sub_add_cancel hne]
  exact wp_eq_of_cnt hw hr

/-- An effective pop takes one sample from the count. -/
theorem cnt_rbPop {s : State} (hs : RingInv s) (hne : 0 < cnt s) : cnt (rbPop s) = cnt s - 1 := by
  have hwp := wp_eq_of_pop hs hne
  obtain ⟨hcfg, -, -, hc, -⟩ := hs
  exact cnt_of_wp_eq (s := rbPop s) (nextPtr_lt _ hcfg) (show cnt s - 1 < 2 * capacity s.cfg by omega) hwp

theorem rbPop_keeps_ringInv {s : State} (hs : RingInv s) (hne : 0 < cnt s) : RingInv (rbPop s) := by
  have hwp := wp_eq_of_pop hs hne
  obtain ⟨hcfg, -, -, hc, hslots⟩ := hs
  refine ringInv_of_window (s := rbPop s) (n := cnt s - 1) hcfg (nextPtr_lt _ hcfg) (show _ ≤ capacity s.cfg by omega)
    hwp fun k hk => ?_
  rw [rbPop_rp, rbPop_cfg, rbPop_rbMem, nextPtr_add_slot _ _ hcfg]
  exact hslots (k + 1) (by omega)

/-! ## A push -/

/-- A store leaves every written slot written. -/
theorem Memory.isSome_cellAt_store {m : Memory} {a b : Nat} {v : BitVec 16} (h : b = a ∨ (m.cellAt b).isSome) :
    ((m.store a v).cellAt b).isSome := by
  rw [Memory.cellAt_store]
  split
  · rfl
  · exact h.resolve_left ‹_›

/-- After a push every slot of the window is written, and the next one too. -/
theorem isSome_slot_rbPush {s : State} (hs : RingInv s) (d : Sample) {k : Nat} (hk : k ≤ cnt s) :
    ((rbPush s d).rbMem.cellAt ((s.rp.toNat + k) % capacity s.cfg)).isSome := by
  refine Memory.isSome_cellAt_store ?_
  rcases Nat.lt_or_eq_of_le hk with hlt | rfl
  · obtain ⟨-, -, -, -, hslots⟩ := hs
    exact .inr (hslots k hlt)
  · exact .inl (slotOf_wp hs).symm

/-- The pushed window's end. -/
theorem nextPtr_wp_eq {s : State} (hs : RingInv s) :
    (nextPtr s.cfg s.wp).toNat = (s.rp.toNat + (cnt s + 1)) % (2 * capacity s.cfg) := by
  obtain ⟨hcfg, hw, hr, -, -⟩ := hs
  rw [nextPtr_toNat _ hcfg, wp_eq_of_cnt hw hr, Nat.mod_add_mod, Nat.add_assoc]

theorem rbPush_keeps_ringInv {s : State} (hs : RingInv s) (d : Sample) : RingInv (rbPush s d) := by
  obtain ⟨hcfg, -, hr, hc, -⟩ := id hs
  cases hfull : rbFull s with
  | true =>
    have hcnt := rbFull_eq_true.mp hfull
    have hrp : (rbPush s d).rp = nextPtr s.cfg s.rp := by simp [hfull]
    refine ringInv_of_window (n := cnt s) hcfg (hrp ▸ nextPtr_lt _ hcfg) hc ?_ fun k hk => ?_
    · rw [hrp, rbPush_wp, rbPush_cfg, nextPtr_add_mod _ _ hcfg]
      exact nextPtr_wp_eq hs
    · rw [hrp, rbPush_cfg, nextPtr_add_slot _ _ hcfg]
      exact isSome_slot_rbPush hs d hk
  | false =>
    have hcnt : cnt s ≠ capacity s.cfg := fun h => by simp [rbFull_eq_true.mpr h] at hfull
    have hrp : (rbPush s d).rp = s.rp := by simp [hfull]
    refine ringInv_of_window (n := cnt s + 1) hcfg (hrp ▸ hr) (show _ ≤ capacity s.cfg by omega) ?_ fun k hk => ?_
    · rw [hrp, rbPush_wp, rbPush_cfg]
      exact nextPtr_wp_eq hs
    · rw [hrp, rbPush_cfg]
      exact isSome_slot_rbPush hs d (by omega)

/-! ## Every operation -/

theorem advanceCopy_keeps_ringInv {s : State} (hs : RingInv s) : RingInv (advanceCopy s) := by
  unfold advanceCopy
  split <;> exact hs

theorem acceptBlock_keeps_ringInv (p : SrcAddr) (l : Len) {s : State} (hs : RingInv s) :
    RingInv (acceptBlock p l s) := by
  unfold acceptBlock
  split <;> exact hs

/-- The reset buffer is empty. -/
theorem ringInv_of_wp_rp_zero {s : State} (hcfg : s.cfg.legal) (hw : s.wp = 0) (hr : s.rp = 0) : RingInv s := by
  have hpos := capacity_pos s.cfg
  refine ringInv_of_window (n := 0) hcfg ?_ hpos.le ?_ nofun
  · simp [hr, hpos]
  · simp [hw, hr]

theorem exec_keeps_ringInv (i : Instr) (s t : State) (hs : RingInv s) (h : exec i s = .next t) : RingInv t := by
  cases exec_effect h with
  | pop he => exact rbPop_keeps_ringInv hs (rbEmpty_eq_false.mp he)
  | reset =>
    obtain ⟨hcfg, -, -, -, -⟩ := hs
    exact ringInv_of_wp_rp_zero hcfg rfl rfl
  | blockAccepted p l => exact acceptBlock_keeps_ringInv p l (checkDesync_preserves l hs hs)
  | beat d =>
    have hpush : RingInv (rbPush s d) := rbPush_keeps_ringInv hs d
    exact advanceCopy_keeps_ringInv hpush
  | _ => exact hs

/-- Settles O34: a pop and a push keep the window in range and written, and no other operation but reset moves it. -/
theorem stepKeepsRingInv : Obligations.StepKeepsRingInv :=
  fun _ _ hs h => step_preserves (fun _ h => h) (fun _ h => h) exec_keeps_ringInv hs h

end Sys2Proof.Machine
end

section
/-! PROOFS. The outputs of a cycle and the transitions of the synthesis state machine: of the operations of a cycle only a
read touches the outputs, and only a host write the configuration. -/

namespace Sys2Proof.Machine
open Sys2Proof Sys2Proof.Claims

/-- What a stage keeps where it runs, it keeps. -/
theorem execIf_keeps {α : Type} {f : State → α} {b : Bool} {i : Instr} {s t : State}
    (hexec : b = true → exec i s = .next t → f t = f s) (h : execIf b i s = .next t) : f t = f s := by
  rcases execIf_next.mp h with ⟨hb, h⟩ | ⟨-, rfl⟩
  · exact hexec hb h
  · rfl

/-! ## The outputs -/

/-- Only a read writes an output port, `h_rdata` (10_state R31, 40_cycle_and_bus R112). -/
theorem exec_out {i : Instr} {s t : State} (h : exec i s = .next t) : ∃ v, t.out = { s.out with hRdata := v } := by
  cases exec_effect h with
  | read v => exact ⟨v, rfl⟩
  | pop => exact ⟨_, rfl⟩
  | blockAccepted p l => exact ⟨s.out.hRdata, by simp⟩
  | beat d => exact ⟨s.out.hRdata, by simp⟩
  | _ => exact ⟨s.out.hRdata, rfl⟩

theorem exec_out_of_not_read {i : Instr} {s t : State} (hk : kind i ≠ .read) (h : exec i s = .next t) : t.out = s.out := by
  cases exec_effect h with
  | read _ hr => exact absurd hr hk
  | pop => exact absurd rfl hk
  | blockAccepted p l => simp
  | beat d => simp
  | _ => rfl

/-- Every read runs before the events (40_cycle_and_bus R121). -/
theorem early_of_read {i : Instr} (hk : kind i = .read) : runsBeforeEvents i = true := by
  cases i <;> cases hk <;> rfl

/-- The outputs of a cycle are those after its early host operation. -/
theorem step_out {s t : State} (hr : (nextInputs s).rst = false) (h : step s = .next t) :
    ∃ a, execIf ((nextInputs s).hSel && runsBeforeEvents (hostOp (nextInputs s))) (hostOp (nextInputs s))
        (beginCycle s) = .next a ∧ t.out = a.out := by
  obtain ⟨a, b, c, d, e, ha, hb, hc, hd, he, ht⟩ := step_stages hr h
  refine ⟨a, ha, ?_⟩
  calc
    t.out = e.out := execIf_keeps (fun hl => exec_out_of_not_read fun hk => by simp [early_of_read hk] at hl) ht
    _ = d.out := execIf_keeps (fun _ => exec_out_of_not_read (by nofun)) he
    _ = c.out := execIf_keeps (fun _ => exec_out_of_not_read (by nofun)) hd
    _ = b.out := execIf_keeps (fun _ => exec_out_of_not_read (by nofun)) hc
    _ = (tick a).out := execIf_keeps (fun _ => exec_out_of_not_read (by nofun)) hb
    _ = a.out := rfl

theorem step_out_registered {s t : State} (h : step s = .next t) :
    ∃ v, t.out = { registeredOutputs s with hRdata := v } := by
  cases hr : (nextInputs s).rst with
  | true => exact exec_out (step_of_reset hr ▸ h)
  | false =>
    obtain ⟨a, ha, hout⟩ := step_out hr h
    rw [hout]
    rcases execIf_next.mp ha with ⟨-, ha⟩ | ⟨-, rfl⟩
    · exact exec_out ha
    · exact ⟨0, rfl⟩

/-- In a cycle that reads nothing, `h_rdata` is 0. -/
theorem step_out_of_no_read {s t : State} (h : step s = .next t)
    (hx : ((nextInputs s).rst || !(nextInputs s).hSel || (nextInputs s).hWe) = true) : t.out = registeredOutputs s := by
  cases hr : (nextInputs s).rst with
  | true => exact exec_out_of_not_read (i := .evReset) nofun (step_of_reset hr ▸ h)
  | false =>
    obtain ⟨a, ha, hout⟩ := step_out hr h
    rw [hout]
    refine execIf_keeps (f := State.out) (s := beginCycle s) (fun hb => exec_out_of_not_read ?_) ha
    have hwe : (nextInputs s).hWe = true := by simp_all
    rw [kind_hostOp, if_pos hwe]
    nofun

/-- Settles O58: the outputs are driven when the cycle begins, and only a read writes one of them after that. -/
theorem outputsAreRegistered : Obligations.OutputsAreRegistered := by
  intro s t h
  constructor
  · obtain ⟨v, hout⟩ := step_out_registered h
    rw [hout]
    rfl
  · intro hx
    rw [step_out_of_no_read h hx]
    rfl

/-! ## The configuration -/

/-- The fields that without reset only a host write changes (40_cycle_and_bus R122), with the parameters. -/
def configPart (s : State) :=
  (s.cfg, s.acqRun, s.acqChan, s.acqRate, s.acqBlk, s.synSt, s.tblMem, s.tblLen, s.tblAddr, s.synChan, s.synPeriod,
    s.lastRes)

/-- The one write that runs before the events is that of FAULT. -/
theorem eq_wrFault_of_early_write {i : Instr} (hk : kind i = .write) (hi : runsBeforeEvents i = true) :
    ∃ m, i = .wrFault m := by
  cases i with
  | wrFault m => exact ⟨m, rfl⟩
  | _ => nomatch hk, hi

theorem exec_configPart {i : Instr} {s t : State} (hi : i ≠ .evReset)
    (hw : kind i = .write → runsBeforeEvents i = true) (h : exec i s = .next t) : configPart t = configPart s := by
  cases exec_effect h with
  | refused hk ha =>
    obtain ⟨m, rfl⟩ := eq_wrFault_of_early_write hk (hw hk)
    cases ha
  | reset => exact absurd rfl hi
  | read | pop | ignored | clearFault | blockIgnored | blockReentry | noBeat | noFiring | firingReentry | firingAccepted
  | noDacAccept | dacAccept => rfl
  | blockAccepted p l => simp [configPart]
  | beat d => simp [configPart]
  | _ => nomatch hw rfl

/-- The late host operation of a cycle finds the configuration of the pre-state (60_exceptions R290). -/
theorem step_late {s t : State} (hr : (nextInputs s).rst = false) (h : step s = .next t) :
    ∃ e, configPart e = configPart s ∧
      execIf ((nextInputs s).hSel && !runsBeforeEvents (hostOp (nextInputs s))) (hostOp (nextInputs s)) e = .next t := by
  obtain ⟨a, b, c, d, e, ha, hb, hc, hd, he, ht⟩ := step_stages hr h
  refine ⟨e, ?_, ht⟩
  have hhost := kind_hostOp_ne_event (nextInputs s)
  calc
    configPart e = configPart d := execIf_keeps (fun _ => exec_configPart (by nofun) (by nofun)) he
    _ = configPart c := execIf_keeps (fun _ => exec_configPart (by nofun) (by nofun)) hd
    _ = configPart b := execIf_keeps (fun _ => exec_configPart (by nofun) (by nofun)) hc
    _ = configPart (tick a) := execIf_keeps (fun _ => exec_configPart (by nofun) (by nofun)) hb
    _ = configPart a := rfl
    _ = configPart (beginCycle s) :=
      execIf_keeps (fun hl => exec_configPart (fun hi => hhost (by rw [hi]; rfl)) (fun _ => by simp_all)) ha
    _ = configPart s := rfl

/-! ## Commands -/

theorem decodeCommand_eq_iff {v w : Word} {i : Instr} (hi : (w, i) ∈ commandRows) : decodeCommand v = i ↔ v = w := by
  rw [decodeCommand_eq]
  simp only [commandRows, List.mem_cons, Prod.mk.injEq, List.not_mem_nil, or_false] at hi
  rcases hi with ⟨rfl, rfl⟩ | ⟨rfl, rfl⟩ | ⟨rfl, rfl⟩ | ⟨rfl, rfl⟩ | ⟨rfl, rfl⟩ | ⟨rfl, rfl⟩ <;> split_ifs <;> simp_all

/-- Only a write to CMD decodes as a command. -/
theorem decodeWrite_eq_command_iff {a : RegAddr} {v w : Word} {i : Instr} (hi : (w, i) ∈ commandRows) :
    decodeWrite a v = i ↔ a = 0x02 ∧ v = w := by
  rw [← decodeCommand_eq_iff hi]
  by_cases ha : a = 0x02
  · simp [decodeWrite, ha]
  · have hcmd : i ∈ commandRows.map Prod.snd := List.mem_map_of_mem hi
    have hne : decodeWrite a v ∉ commandRows.map Prod.snd := by
      unfold decodeWrite
      rw [if_neg ha]
      split_ifs <;> simp [commandRows]
    exact ⟨fun h => absurd (h ▸ hcmd) hne, fun h => absurd h.1 ha⟩

theorem kind_command {w : Word} {i : Instr} (hi : (w, i) ∈ commandRows) : kind i = .write := by
  rw [← (decodeWrite_eq_command_iff hi).mpr ⟨rfl, rfl⟩]
  exact kind_decodeWrite _ _

/-- The host gives a command in a cycle exactly where its transaction decodes as the command (30_encoding R84). -/
theorem commands_iff {x : Inputs} {w : Word} {i : Instr} (hi : (w, i) ∈ commandRows) :
    commands x w = true ↔ x.hSel = true ∧ hostOp x = i := by
  have hread : decodeRead x.hAddr ≠ i := fun h => by
    have hk := kind_decodeRead x.hAddr
    rw [h, kind_command hi] at hk
    cases hk
  rw [hostOp_eq]
  cases hwe : x.hWe <;> simp [commands, hwe, hread, decodeWrite_eq_command_iff hi, and_assoc]

/-- The synthesis state after a host operation (10_state R26). -/
def synStAfter (i : Instr) (s : State) : SynState :=
  if i = .cmdTblCommit ∧ s.synSt = .uninit ∧ s.tblLen ≠ 0 ∧ s.tblLen.toNat ≤ tblDepth s.cfg then .ready
  else if i = .cmdSynStart ∧ (s.synSt = .ready ∨ s.synSt = .stopped) ∧ s.synPeriod ≠ 0 then .running
  else if i = .cmdSynStop ∧ s.synSt = .running then .stopped
  else s.synSt

theorem synStAfter_of_other {i : Instr} {s : State} (hc : i ≠ .cmdTblCommit) (hb : i ≠ .cmdSynStart)
    (he : i ≠ .cmdSynStop) : synStAfter i s = s.synSt := by
  simp [synStAfter, hc, hb, he]

/-- A start is accepted in READY and STOPPED, with a period. -/
theorem accepts_cmdSynStart_iff {s : State} :
    accepts s .cmdSynStart = true ↔ (s.synSt = .ready ∨ s.synSt = .stopped) ∧ s.synPeriod ≠ 0 := by
  rw [accepts_cmdSynStart]
  cases s.synSt <;> simp

theorem accepts_cmdTblCommit_iff {s : State} :
    accepts s .cmdTblCommit = true ↔ s.synSt = .uninit ∧ s.tblLen ≠ 0 ∧ s.tblLen.toNat ≤ tblDepth s.cfg := by
  rw [accepts_cmdTblCommit, Bool.and_eq_true, tblLenValid_eq_true]
  simp [tblLocked]

/-- A refused command changes no synthesis state. -/
theorem synStAfter_of_refused {i : Instr} {s : State} (ha : accepts s i = false) : synStAfter i s = s.synSt := by
  have hc : i = .cmdTblCommit → ¬(s.synSt = .uninit ∧ s.tblLen ≠ 0 ∧ s.tblLen.toNat ≤ tblDepth s.cfg) := by
    rintro rfl
    rw [← accepts_cmdTblCommit_iff, ha]
    nofun
  have hb : i = .cmdSynStart → ¬((s.synSt = .ready ∨ s.synSt = .stopped) ∧ s.synPeriod ≠ 0) := by
    rintro rfl
    rw [← accepts_cmdSynStart_iff, ha]
    nofun
  have he : i ≠ .cmdSynStop := by
    rintro rfl
    cases ha
  unfold synStAfter
  rw [if_neg (not_and.mpr hc), if_neg (not_and.mpr hb), if_neg (fun h => he h.1)]

theorem exec_host_synSt {i : Instr} {s t : State} (hk : kind i ≠ .event) (h : exec i s = .next t) :
    t.synSt = synStAfter i s := by
  cases exec_effect h with
  | read _ hr =>
    have hne : ∀ j, kind j = .write → i ≠ j := fun j hj hij => by simp [← hij, hr] at hj
    exact (synStAfter_of_other (hne _ rfl) (hne _ rfl) (hne _ rfl)).symm
  | refused _ ha => exact (synStAfter_of_refused ha).symm
  | synStart hr hu hp =>
    have hst : s.synSt = .ready ∨ s.synSt = .stopped := by cases hs : s.synSt <;> simp_all
    rw [synStAfter, if_neg (by nofun), if_pos ⟨rfl, hst, hp⟩]
  | synStop => simp [synStAfter]
  | commit hu hv => rw [synStAfter, if_pos ⟨rfl, hu, tblLenValid_eq_true.mp hv⟩]
  | reset | blockIgnored | blockReentry | blockAccepted | noBeat | beat | noFiring | firingReentry | firingAccepted
  | noDacAccept | dacAccept => exact absurd rfl hk
  | _ => exact (synStAfter_of_other (s := s) (by nofun) (by nofun) (by nofun)).symm

/-- Of the operations of a cycle only the transaction can move the synthesis state, and it finds that of the pre-state. -/
theorem step_synSt {s t : State} (hr : (nextInputs s).rst = false) (h : step s = .next t) :
    t.synSt = if (nextInputs s).hSel then synStAfter (hostOp (nextInputs s)) s else s.synSt := by
  obtain ⟨e, he, ht⟩ := step_late hr h
  simp only [configPart, Prod.mk.injEq] at he
  obtain ⟨hcfg, -, -, -, -, hst, -, hlen, -, -, hper, -⟩ := he
  have hsyn : ∀ i, synStAfter i e = synStAfter i s := fun i => by simp [synStAfter, hcfg, hst, hlen, hper]
  rcases execIf_next.mp ht with ⟨hl, ht⟩ | ⟨hl, rfl⟩
  · obtain ⟨hsel, -⟩ := Bool.and_eq_true_iff.mp hl
    rw [if_pos hsel, exec_host_synSt (kind_hostOp_ne_event _) ht, hsyn]
  · split
    next hsel =>
      have hearly : runsBeforeEvents (hostOp (nextInputs s)) = true := by simpa [hsel] using hl
      have hne : ∀ j, runsBeforeEvents j = false → hostOp (nextInputs s) ≠ j := fun j hj hij => by
        simp [hij, hj] at hearly
      rw [hst, synStAfter_of_other (hne _ rfl) (hne _ rfl) (hne _ rfl)]
    next => exact hst

/-- Settles O49: of a cycle's operations only the three commands move the state, each where it is accepted. -/
theorem synthesisStateTransitions : Obligations.SynthesisStateTransitions := by
  intro s t hr h x
  have hcommit := commands_iff (x := x) (w := 5) (i := .cmdTblCommit) (by decide)
  have hstart := commands_iff (x := x) (w := 3) (i := .cmdSynStart) (by decide)
  have hstop := commands_iff (x := x) (w := 4) (i := .cmdSynStop) (by decide)
  rw [step_synSt hr h]
  simp only [hcommit, hstart, hstop, synStAfter]
  cases hsel : x.hSel <;> simp [x, hsel] at *

end Sys2Proof.Machine
end

section
/-! PROOFS. The event counters. The two paths of a cycle are followed apart: the sample path (pop, completion, beat) and the
sequencer's (tick, accept, firing); the operations of the one leave the state of the other, and host operations leave the
counters (10_state R37, 40_cycle_and_bus R111). -/

namespace Sys2Proof.Machine
open Sys2Proof Sys2Proof.Claims

/-! ## The two paths -/

/-- The operations that can change the sequencer's part of the state. -/
def actsOnSyn : Instr → Bool
  | .wrSynChan _ | .wrSynPeriod _ | .wrTblLen _ | .wrTblAddr _ | .wrTblData _ | .cmdSynStart | .cmdSynStop
  | .cmdTblCommit | .evReset | .evFire | .evDacAccept => true
  | _ => false

/-- The operations that can change the adapter's or the ring buffer's part. -/
def actsOnAcq : Instr → Bool
  | .rdRbData | .wrAcqChan _ | .wrAcqRate _ | .wrAcqBlk _ | .cmdAcqStart | .cmdAcqStop | .evReset | .evDmaDone _ _
  | .evCopyBeat _ => true
  | _ => false

theorem exec_synPart {i : Instr} {s t : State} (hi : actsOnSyn i = false) (h : exec i s = .next t) :
    synPart t = synPart s := by
  cases exec_effect h with
  | synChan | synPeriod | synStart | synStop | tblLen | tblAddr | tblData | commit | reset | firingReentry
  | firingAccepted | dacAccept => cases hi
  | blockAccepted p l => simp [synPart]
  | beat d => simp [synPart]
  | _ => rfl

theorem exec_acqPart {i : Instr} {s t : State} (hi : actsOnAcq i = false) (h : exec i s = .next t) :
    acqPart t = acqPart s := by
  cases exec_effect h with
  | pop | acqChan | acqRate | acqBlk | acqStart | acqStop | reset | blockAccepted | beat => cases hi
  | _ => rfl

theorem actsOnSyn_of_early {i : Instr} (hi : runsBeforeEvents i = true) : actsOnSyn i = false := by
  cases i <;> cases hi <;> rfl

/-- The only early operation that acts on the sample path is the read of RB_DATA. -/
theorem actsOnAcq_of_early {i : Instr} (hi : runsBeforeEvents i = true) (hp : i ≠ .rdRbData) : actsOnAcq i = false := by
  cases i with
  | rdRbData => exact absurd rfl hp
  | _ => cases hi <;> rfl

/-- No operation changes the port values of its cycle. -/
theorem exec_inp {i : Instr} {s t : State} (h : exec i s = .next t) : t.inp = s.inp := by
  cases exec_effect h with
  | blockAccepted p l => simp
  | beat d => simp
  | _ => rfl

/-- The four event counters (10_state R37). -/
def counters (s : State) := (s.ovfCnt, s.acqSamples, s.acqBlks, s.synFires)

/-- No host access changes an event counter (10_state R37). -/
theorem exec_host_counters {i : Instr} {s t : State} (hk : kind i ≠ .event) (h : exec i s = .next t) :
    counters t = counters s := by
  cases exec_effect h with
  | reset | blockIgnored | blockReentry | blockAccepted | noBeat | beat | noFiring | firingReentry | firingAccepted
  | noDacAccept | dacAccept => exact absurd rfl hk
  | _ => rfl

/-! ## The sample path -/

/-- The ring buffer's registers and the counts that a push moves. -/
def ringPart (s : State) := (s.cfg, s.wp, s.rp, s.ovfCnt, s.acqSamples)

/-- The adapter's registers that decide which blocks are counted, and their count. -/
def copyPart (s : State) := (s.acqRun, s.acqBusy, s.cpLen, s.cpIdx, s.acqBlks)

theorem ringPart_of_acqPart {s t : State} (h : acqPart t = acqPart s) : ringPart t = ringPart s := by
  simp only [acqPart, Prod.mk.injEq] at h
  simp [ringPart, h]

theorem copyPart_of_acqPart {s t : State} (h : acqPart t = acqPart s) : copyPart t = copyPart s := by
  simp only [acqPart, Prod.mk.injEq] at h
  simp [copyPart, h]

theorem decodeRead_eq_rdRbData : ∀ a : RegAddr, decodeRead a = .rdRbData ↔ a = 0x06 := by decide

/-- The host reads RB_DATA exactly where its transaction decodes as that read. -/
theorem popReq_iff (x : Inputs) : popReq x = true ↔ x.hSel = true ∧ hostOp x = .rdRbData := by
  have hwrite : decodeWrite x.hAddr x.hWdata ≠ .rdRbData := fun h => by
    have hk := kind_decodeWrite x.hAddr x.hWdata
    rw [h] at hk
    cases hk
  rw [hostOp_eq]
  cases hwe : x.hWe <;> simp [popReq, hwe, hwrite, decodeRead_eq_rdRbData]

theorem exec_rdRbData {s t : State} (h : exec .rdRbData s = .next t) :
    acqPart t = acqPart (if 0 < cnt s then rbPop s else s) := by
  cases exec_effect h with
  | refused hk => cases hk
  | read _ _ he =>
    have hzero : ¬ 0 < cnt s := by simpa [rbEmpty] using he rfl
    rw [if_neg hzero]
    rfl
  | pop he =>
    rw [if_pos (rbEmpty_eq_false.mp he)]
    rfl

/-- The buffer as the events of the cycle find it: after an effective pop of the host, or unchanged. -/
def popped (s : State) : State := if popReq (nextInputs s) = true ∧ 0 < cnt s then rbPop s else s

theorem acqPart_of_early {s a : State}
    (ha : execIf ((nextInputs s).hSel && runsBeforeEvents (hostOp (nextInputs s))) (hostOp (nextInputs s))
      (beginCycle s) = .next a) : acqPart a = acqPart (popped s) := by
  unfold popped
  by_cases hp : popReq (nextInputs s) = true
  · obtain ⟨hsel, hi⟩ := (popReq_iff _).mp hp
    rw [hi, hsel] at ha
    have hread : acqPart a = acqPart (if 0 < cnt s then rbPop (beginCycle s) else beginCycle s) :=
      exec_rdRbData (s := beginCycle s) ha
    rw [hread]
    simp only [hp, true_and]
    split <;> rfl
  · rw [if_neg (fun h => hp h.1)]
    refine execIf_keeps (s := beginCycle s) (fun hb => exec_acqPart ?_) ha
    obtain ⟨hsel, hearly⟩ := Bool.and_eq_true_iff.mp hb
    exact actsOnAcq_of_early hearly fun hi => hp ((popReq_iff _).mpr ⟨hsel, hi⟩)

theorem copyPart_popped (s : State) : copyPart (popped s) = copyPart s := by
  unfold popped
  split <;> rfl

theorem popped_ovfCnt (s : State) : (popped s).ovfCnt = s.ovfCnt := by
  unfold popped
  split <;> rfl

theorem popped_acqSamples (s : State) : (popped s).acqSamples = s.acqSamples := by
  unfold popped
  split <;> rfl

/-- The events of the sample path in a cycle without reset: they start from the popped buffer, and their counts are those of
the cycle. -/
theorem step_sample_path {s t : State} (hr : (nextInputs s).rst = false) (h : step s = .next t) :
    ∃ a b c : State, ringPart a = ringPart (popped s) ∧ copyPart a = copyPart s ∧
      execIf (nextInputs s).dmaDone (.evDmaDone (nextInputs s).dmaPtr (nextInputs s).dmaLen) a = .next b ∧
      execIf s.acqBusy (.evCopyBeat (nextInputs s).srcData) b = .next c ∧
      t.ovfCnt = c.ovfCnt ∧ t.acqSamples = c.acqSamples ∧ t.acqBlks = c.acqBlks := by
  obtain ⟨a, b, c, d, e, ha, hb, hc, hd, he, ht⟩ := step_stages hr h
  have hpop := acqPart_of_early ha
  have hlate : counters t = counters e := execIf_keeps (fun _ => exec_host_counters (kind_hostOp_ne_event _)) ht
  have hsyn : acqPart e = acqPart c :=
    calc
      acqPart e = acqPart d := execIf_keeps (fun _ => exec_acqPart rfl) he
      _ = acqPart c := execIf_keeps (fun _ => exec_acqPart rfl) hd
  simp only [counters, acqPart, Prod.mk.injEq] at hlate hsyn
  have hcopy : copyPart a = copyPart s := (copyPart_of_acqPart hpop).trans (copyPart_popped s)
  refine ⟨tick a, b, c, ringPart_of_acqPart (t := a) hpop, hcopy, hb, hc, ?_⟩
  simp only [hlate, hsyn, and_self]

theorem exec_dmaDone_ringPart {p : SrcAddr} {l : Len} {s t : State} (h : exec (.evDmaDone p l) s = .next t) :
    ringPart t = ringPart s := by
  cases exec_effect h with
  | blockAccepted => simp [ringPart]
  | _ => rfl

/-- During a copy a completion leaves the adapter's registers: it is a reentry, or ignored. -/
theorem exec_dmaDone_copyPart_of_busy {p : SrcAddr} {l : Len} {s t : State} (hb : s.acqBusy = true)
    (h : exec (.evDmaDone p l) s = .next t) : copyPart t = copyPart s := by
  cases exec_effect h with
  | blockAccepted _ _ _ hidle => simp [hb] at hidle
  | _ => rfl

/-- With no copy, an accepted block of length 0 is counted at once, and no other (43_acquisition_adapter R186). -/
theorem exec_dmaDone_acqBlks_of_idle {p : SrcAddr} {l : Len} {s t : State} (hb : s.acqBusy = false)
    (h : exec (.evDmaDone p l) s = .next t) :
    t.acqBlks = if s.acqRun = true ∧ l = 0 then s.acqBlks + 1 else s.acqBlks := by
  cases exec_effect h with
  | refused hk => cases hk
  | read _ hk => cases hk
  | blockIgnored _ _ hr => simp [hr]
  | blockReentry _ _ _ hbusy => simp [hb] at hbusy
  | blockAccepted _ _ hr => simp [hr]

/-- During a copy a beat is one push. -/
theorem exec_beat_of_busy {d : Sample} {s t : State} (hb : s.acqBusy = true) (h : exec (.evCopyBeat d) s = .next t) :
    t = advanceCopy { rbPush s d with acqSamples := s.acqSamples + 1 } := by
  cases exec_effect h with
  | refused hk => cases hk
  | read _ hk => cases hk
  | noBeat _ hidle => simp [hb] at hidle
  | beat => rfl

/-- The buffer of a cycle is full for its push where it was full and nothing was popped from it. -/
theorem rbFull_popped {s : State} (hs : RingInv s) :
    rbFull (popped s) = true ↔ cnt s = capacity s.cfg ∧ popReq (nextInputs s) = false := by
  have hpos := capacity_pos s.cfg
  obtain ⟨-, -, -, hle, -⟩ := id hs
  rw [rbFull_eq_true, popped]
  split
  next hp =>
    obtain ⟨hreq, hne⟩ := hp
    have hlt : cnt s - 1 ≠ capacity s.cfg := by omega
    simp [cnt_rbPop hs hne, hreq, hlt]
  next hp =>
    cases hreq : popReq (nextInputs s) with
    | false => simp
    | true =>
      have hempty : ¬ 0 < cnt s := fun hne => hp ⟨hreq, hne⟩
      have hne : cnt s ≠ capacity s.cfg := by omega
      simp [hne]

theorem rbFull_congr {s t : State} (h : ringPart t = ringPart s) : rbFull t = rbFull s := by
  simp only [ringPart, Prod.mk.injEq] at h
  obtain ⟨hcfg, hwp, hrp, -⟩ := h
  unfold rbFull cnt
  rw [hcfg, hwp, hrp]

/-- The overflow count and the sample count of a cycle (42_ring_buffer R162, 43_acquisition_adapter R194). -/
theorem step_push_counts {s t : State} (hs : RingInv s) (hr : (nextInputs s).rst = false) (h : step s = .next t) :
    t.ovfCnt = (if s.acqBusy ∧ cnt s = capacity s.cfg ∧ popReq (nextInputs s) = false then s.ovfCnt + 1 else s.ovfCnt) ∧
      t.acqSamples = if s.acqBusy then s.acqSamples + 1 else s.acqSamples := by
  obtain ⟨a, b, c, hring, hcopy, hb, hc, hovf, hsamples, -⟩ := step_sample_path hr h
  have hringb : ringPart b = ringPart (popped s) := (execIf_keeps (fun _ => exec_dmaDone_ringPart) hb).trans hring
  have hfull : rbFull b = true ↔ _ := rbFull_congr hringb ▸ rbFull_popped hs
  simp only [ringPart, copyPart, Prod.mk.injEq, popped_ovfCnt, popped_acqSamples] at hringb hcopy
  obtain ⟨-, -, -, hbovf, hbsamples⟩ := hringb
  obtain ⟨-, habusy, -⟩ := hcopy
  rw [hovf, hsamples]
  rcases execIf_next.mp hc with ⟨hbusy, hc⟩ | ⟨hidle, rfl⟩
  · have hbbusy : b.acqBusy = true := by
      have hkeep : copyPart b = copyPart a :=
        execIf_keeps (fun _ => exec_dmaDone_copyPart_of_busy (habusy.trans hbusy)) hb
      simp only [copyPart, Prod.mk.injEq] at hkeep
      obtain ⟨-, hkept, -⟩ := hkeep
      rw [hkept, habusy, hbusy]
    rw [exec_beat_of_busy hbbusy hc]
    simp [hbusy, hfull, hbovf, hbsamples]
  · simp [hidle, hbovf, hbsamples]

/-- The block count of a cycle: a copy that ends, or a block of length 0 (43_acquisition_adapter R193). -/
theorem step_acqBlks {s t : State} (hr : (nextInputs s).rst = false) (h : step s = .next t) :
    t.acqBlks =
      if (s.acqBusy ∧ s.cpIdx.toNat + 1 = s.cpLen.toNat) ∨ (acceptedBlock s (nextInputs s) ∧ (nextInputs s).dmaLen = 0)
      then s.acqBlks + 1 else s.acqBlks := by
  obtain ⟨a, b, c, -, hcopy, hb, hc, -, -, hblks⟩ := step_sample_path hr h
  simp only [copyPart, Prod.mk.injEq] at hcopy
  obtain ⟨hrun, habusy, hlen, hidx, hablks⟩ := hcopy
  rw [hblks]
  rcases execIf_next.mp hc with ⟨hbusy, hc⟩ | ⟨hidle, rfl⟩
  · have hkeep : copyPart b = copyPart a :=
      execIf_keeps (fun _ => exec_dmaDone_copyPart_of_busy (habusy.trans hbusy)) hb
    simp only [copyPart, Prod.mk.injEq] at hkeep
    obtain ⟨-, hbbusy, hblen, hbidx, hbblks⟩ := hkeep
    rw [exec_beat_of_busy (hbbusy.trans (habusy.trans hbusy)) hc]
    simp [acceptedBlock, hbusy, hblen, hbidx, hbblks, hlen, hidx, hablks]
  · rcases execIf_next.mp hb with ⟨hdone, hb⟩ | ⟨hquiet, rfl⟩
    · rw [exec_dmaDone_acqBlks_of_idle (habusy.trans hidle) hb]
      simp [acceptedBlock, hidle, hdone, hrun, hablks]
    · simp [acceptedBlock, hidle, hquiet, hablks]

/-! ## The sequencer's path -/

/-- A DAC write is pending after the accept where it was and the DAC did not take it (44_synthesis_sequencer R216). -/
theorem dacAccept_stage {b : Bool} {s t : State} (hb : b = (s.dacValid && s.inp.dacReady))
    (h : execIf b .evDacAccept s = .next t) : t = { s with dacValid := s.dacValid && !s.inp.dacReady } := by
  rcases execIf_next.mp h with ⟨hacc, h⟩ | ⟨hacc, rfl⟩
  · have hd := hb.symm.trans hacc
    cases exec_effect h with
    | refused hk => cases hk
    | read _ hk => cases hk
    | noDacAccept hn => simp [hd] at hn
    | dacAccept => simp_all
  · have hkeep : (t.dacValid && !t.inp.dacReady) = t.dacValid := by
      cases hv : t.dacValid <;> simp_all
    rw [hkeep]

/-- A due firing is counted unless it overlaps a pending write (44_synthesis_sequencer R214, R215). -/
theorem exec_fire_synFires {s t : State} (hf : fireCond s = true) (h : exec .evFire s = .next t) :
    t.synFires = if s.dacValid && !s.inp.dacReady then s.synFires else s.synFires + 1 := by
  cases exec_effect h with
  | refused hk => cases hk
  | read _ hk => cases hk
  | noFiring hn => simp [hf] at hn
  | firingReentry _ hd => simp [hd]
  | firingAccepted _ hd => simp [hd]

/-- The events of the sequencer's path in a cycle without reset: they start from the ticked pre-state, and their count of
firings is that of the cycle. -/
theorem step_syn_path {s t : State} (hr : (nextInputs s).rst = false) (h : step s = .next t) :
    ∃ c d e : State, synPart c = synPart (tick s) ∧ c.inp = nextInputs s ∧
      execIf (s.dacValid && (nextInputs s).dacReady) .evDacAccept c = .next d ∧
      execIf (fireCond s) .evFire d = .next e ∧ t.synFires = e.synFires := by
  obtain ⟨a, b, c, d, e, ha, hb, hc, hd, he, ht⟩ := step_stages hr h
  have hlate : counters t = counters e := execIf_keeps (fun _ => exec_host_counters (kind_hostOp_ne_event _)) ht
  simp only [counters, Prod.mk.injEq] at hlate
  obtain ⟨-, -, -, hfires⟩ := hlate
  have hearly : synPart a = synPart (beginCycle s) :=
    execIf_keeps (fun hl => exec_synPart (actsOnSyn_of_early (Bool.and_eq_true_iff.mp hl).2)) ha
  have htick : synPart (tick a) = synPart (tick s) := by
    simp only [synPart, Prod.mk.injEq, beginCycle_cfg] at hearly
    simp [synPart, hearly]
  refine ⟨c, d, e, ?_, ?_, hd, he, hfires⟩
  · calc
      synPart c = synPart b := execIf_keeps (fun _ => exec_synPart rfl) hc
      _ = synPart (tick a) := execIf_keeps (fun _ => exec_synPart rfl) hb
      _ = synPart (tick s) := htick
  · calc
      c.inp = b.inp := execIf_keeps (fun _ => exec_inp) hc
      _ = (tick a).inp := execIf_keeps (fun _ => exec_inp) hb
      _ = a.inp := rfl
      _ = (beginCycle s).inp := execIf_keeps (fun _ => exec_inp) ha
      _ = nextInputs s := rfl

/-- A firing is accepted where one is due and overlaps no pending write. -/
theorem acceptedFiring_eq (s : State) (x : Inputs) :
    acceptedFiring s x = (fireCond s && !(s.dacValid && !x.dacReady)) := by
  have hdue : (s.synSt == .running && s.pcnt == 0) = fireCond s := rfl
  rw [acceptedFiring, hdue]

/-- The count of accepted firings of a cycle (44_synthesis_sequencer R224). -/
theorem step_synFires {s t : State} (hr : (nextInputs s).rst = false) (h : step s = .next t) :
    t.synFires = if acceptedFiring s (nextInputs s) then s.synFires + 1 else s.synFires := by
  obtain ⟨c, d, e, hsyn, hinp, hd, he, hfires⟩ := step_syn_path hr h
  simp only [synPart, Prod.mk.injEq, tick_synSt, tick_pcnt, tick_synFires, tick_dacValid] at hsyn
  obtain ⟨-, hst, -, -, -, -, -, hpcnt, -, hcfires, hvalid, -⟩ := hsyn
  have hdacc := dacAccept_stage (by rw [hvalid, hinp]) hd
  subst hdacc
  rw [hfires]
  rcases execIf_next.mp he with ⟨hf, he⟩ | ⟨hf, rfl⟩
  · obtain ⟨hrunning, hzero⟩ := fireCond_eq_true.mp hf
    have hfd : fireCond { c with dacValid := c.dacValid && !c.inp.dacReady } = true :=
      fireCond_eq_true.mpr ⟨hst.trans hrunning, by simp [hpcnt, hzero]⟩
    rw [exec_fire_synFires hfd he]
    rw [acceptedFiring_eq, hf, hvalid, hinp, hcfires]
    cases s.dacValid <;> cases (nextInputs s).dacReady <;> rfl
  · simp [acceptedFiring_eq, hf, hcfires]

/-- Settles O50, one count after the other along the two paths of the cycle. -/
theorem countersCountTheirEvents : Obligations.CountersCountTheirEvents := by
  intro s t hs hr h
  obtain ⟨hovf, hsamples⟩ := step_push_counts hs hr h
  exact ⟨hovf, hsamples, step_acqBlks hr h, step_synFires hr h⟩

end Sys2Proof.Machine
end

section
/-! PROOFS. The ring buffer as a queue that drops its oldest sample (20_memory R70). The unread samples are the contents of the
occupied window; a pop takes its first slot away, a push writes the slot at its end and, in a full buffer, takes the first
away too. A cycle without reset is one such pop and one such push. -/

namespace Sys2Proof.Machine
open Sys2Proof Sys2Proof.Claims

/-! ## Windows of the buffer -/

/-- The contents of the `n` slots that a pointer count `r` begins. -/
def window (s : State) (r n : Nat) : List Sample :=
  (List.range n).map fun k => rbRead s ((r + k) % capacity s.cfg)

/-- The unread samples fill the occupied window. -/
theorem unread_eq_window (s : State) : unread s = window s s.rp.toNat (cnt s) := rfl

@[simp] theorem length_unread (s : State) : (unread s).length = cnt s := by
  simp [unread]

/-- A window with its first slot apart: the rest is the window of the advanced pointer. -/
theorem window_succ {s : State} (q : Pointer) (n : Nat) (h : s.cfg.legal) :
    window s q.toNat (n + 1) = rbRead s (slotOf s.cfg q) :: window s (nextPtr s.cfg q).toNat n := by
  simp [window, List.range_succ_eq_map, slotOf, nextPtr_add_slot q _ h]

/-- Slots less than a capacity apart are different slots. -/
theorem slot_ne_of_lt {r k n c : Nat} (hk : k < n) (hn : n < c) : (r + k) % c ≠ (r + n) % c := by
  intro h
  have hmod : k % c = n % c := Nat.ModEq.add_left_cancel' r h
  rw [Nat.mod_eq_of_lt (hk.trans hn), Nat.mod_eq_of_lt hn] at hmod
  omega

/-- A push appends its sample to a window that ends at the written slot and is shorter than the buffer. -/
theorem window_rbPush {s : State} (d : Sample) {r n : Nat} (hend : slotOf s.cfg s.wp = (r + n) % capacity s.cfg)
    (hn : n < capacity s.cfg) : window (rbPush s d) r (n + 1) = window s r n ++ [truncTo s.cfg.sampleW d] := by
  have hkeep : ∀ k ∈ List.range n,
      rbRead (rbPush s d) ((r + k) % capacity s.cfg) = rbRead s ((r + k) % capacity s.cfg) := fun k hk => by
    rw [rbRead_rbPush, hend, if_neg (slot_ne_of_lt (List.mem_range.mp hk) hn)]
  simp only [window, rbPush_cfg, List.range_succ, List.map_append, List.map_cons, List.map_nil, List.map_congr_left hkeep]
  rw [rbRead_rbPush, if_pos hend.symm]

/-! ## A pop and a push -/

theorem unread_of_empty {s : State} (he : rbEmpty s = true) : unread s = [] := by
  rw [← List.length_eq_zero_iff, length_unread]
  simpa [rbEmpty] using he

theorem unread_rbPop {s : State} (hs : RingInv s) (hne : 0 < cnt s) :
    unread (rbPop s) = window s (nextPtr s.cfg s.rp).toNat (cnt s - 1) := by
  rw [unread_eq_window, cnt_rbPop hs hne]
  rfl

/-- The queue's head is the sample a read returns, its rest what a pop leaves. -/
theorem unread_of_nonempty {s : State} (hs : RingInv s) (hne : 0 < cnt s) :
    unread s = rbFront s :: unread (rbPop s) := by
  obtain ⟨hcfg, -⟩ := id hs
  rw [unread_rbPop hs hne, unread_eq_window, rbFront, ← window_succ _ _ hcfg, Nat.sub_add_cancel hne]

theorem cnt_rbPush_of_full {s : State} (hs : RingInv s) (d : Sample) (hfull : rbFull s = true) :
    cnt (rbPush s d) = cnt s := by
  have hwp := nextPtr_wp_eq hs
  have hpos := capacity_pos s.cfg
  obtain ⟨hcfg, -, -, hc, -⟩ := hs
  refine cnt_of_wp_eq ?_ (show cnt s < 2 * capacity s.cfg by omega) ?_
  · simpa [hfull] using nextPtr_lt s.rp hcfg
  · simpa [hfull, nextPtr_add_mod _ _ hcfg] using hwp

theorem cnt_rbPush_of_not_full {s : State} (hs : RingInv s) (d : Sample) (hfull : rbFull s = false) :
    cnt (rbPush s d) = cnt s + 1 := by
  have hwp := nextPtr_wp_eq hs
  have hne : cnt s ≠ capacity s.cfg := by simpa [rbFull] using hfull
  obtain ⟨-, -, hr, hc, -⟩ := hs
  refine cnt_of_wp_eq ?_ (show cnt s + 1 < 2 * capacity s.cfg by omega) ?_
  · simpa [hfull] using hr
  · simpa [hfull] using hwp

/-- A push is the queue's: it appends its sample, cut to SAMPLE_W, and drops the oldest where the queue is full
(42_ring_buffer R160 to R162). -/
theorem unread_rbPush {s : State} (hs : RingInv s) (d : Sample) :
    unread (rbPush s d) = queueCycle (capacity s.cfg) false (some (truncTo s.cfg.sampleW d)) (unread s) := by
  have hend := slotOf_wp hs
  obtain ⟨hcfg, -, -, hle, -⟩ := id hs
  cases hfull : rbFull s with
  | true =>
    have hcnt : cnt s = capacity s.cfg := rbFull_eq_true.mp hfull
    have hpos : 0 < cnt s := hcnt ▸ capacity_pos s.cfg
    have hend' : slotOf s.cfg s.wp = ((nextPtr s.cfg s.rp).toNat + (cnt s - 1)) % capacity s.cfg := by
      rw [nextPtr_add_slot _ _ hcfg, Nat.sub_add_cancel hpos, hend]
    calc
      unread (rbPush s d) = window (rbPush s d) (nextPtr s.cfg s.rp).toNat (cnt s - 1 + 1) := by
        rw [unread_eq_window, cnt_rbPush_of_full hs d hfull, Nat.sub_add_cancel hpos, rbPush_rp, if_pos hfull]
      _ = window s (nextPtr s.cfg s.rp).toNat (cnt s - 1) ++ [truncTo s.cfg.sampleW d] := window_rbPush d hend' (by omega)
      _ = (unread s).tail ++ [truncTo s.cfg.sampleW d] := by
        rw [unread_of_nonempty hs hpos, unread_rbPop hs hpos, List.tail_cons]
      _ = _ := by simp [queueCycle, hcnt]
  | false =>
    have hne : cnt s ≠ capacity s.cfg := by simpa [rbFull] using hfull
    calc
      unread (rbPush s d) = window (rbPush s d) s.rp.toNat (cnt s + 1) := by
        rw [unread_eq_window, cnt_rbPush_of_not_full hs d hfull, rbPush_rp, hfull]
        rfl
      _ = unread s ++ [truncTo s.cfg.sampleW d] := window_rbPush d hend (by omega)
      _ = _ := by simp [queueCycle, hne]

/-! ## The buffer in a cycle -/

/-- The part of the state that the unread samples depend on. -/
def bufferPart (s : State) := (s.cfg, s.rbMem, s.wp, s.rp)

theorem bufferPart_of_acqPart {s t : State} (h : acqPart t = acqPart s) : bufferPart t = bufferPart s := by
  simp only [acqPart, Prod.mk.injEq] at h
  simp [bufferPart, h]

theorem acqBusy_of_copyPart {s t : State} (h : copyPart t = copyPart s) : t.acqBusy = s.acqBusy := by
  simp only [copyPart, Prod.mk.injEq] at h
  obtain ⟨-, hbusy, -⟩ := h
  exact hbusy

theorem unread_congr {s t : State} (h : bufferPart t = bufferPart s) : unread t = unread s := by
  simp only [bufferPart, Prod.mk.injEq] at h
  simp only [unread, cnt, rbRead, h]

theorem rbPush_congr {s t : State} (d : Sample) (h : bufferPart t = bufferPart s) :
    bufferPart (rbPush t d) = bufferPart (rbPush s d) := by
  simp only [bufferPart, Prod.mk.injEq] at h
  obtain ⟨hcfg, hmem, hwp, hrp⟩ := h
  have hfull : rbFull t = rbFull s := by
    unfold rbFull cnt
    rw [hcfg, hwp, hrp]
  simp [bufferPart, hcfg, hmem, hwp, hrp, hfull]

/-- The operations that can change the buffer. -/
def actsOnBuffer : Instr → Bool
  | .rdRbData | .evReset | .evCopyBeat _ => true
  | _ => false

theorem exec_bufferPart {i : Instr} {s t : State} (hi : actsOnBuffer i = false) (h : exec i s = .next t) :
    bufferPart t = bufferPart s := by
  cases exec_effect h with
  | pop | reset | beat => cases hi
  | blockAccepted p l => simp [bufferPart]
  | _ => rfl

/-- The read of RB_DATA sees the pre-state, so no late transaction pops (40_cycle_and_bus R121). -/
theorem actsOnBuffer_of_late {i : Instr} (hk : kind i ≠ .event) (hi : runsBeforeEvents i = false) :
    actsOnBuffer i = false := by
  cases i with
  | rdRbData => cases hi
  | evReset | evCopyBeat => exact absurd rfl hk
  | _ => rfl

theorem exec_beat_bufferPart {d : Sample} {s t : State} (hb : s.acqBusy = true) (h : exec (.evCopyBeat d) s = .next t) :
    bufferPart t = bufferPart (rbPush s d) := by
  rw [exec_beat_of_busy hb h]
  simp [bufferPart]

/-- The buffer after a cycle without reset: a beat pushes onto the popped buffer (42_ring_buffer R164). -/
def popPushed (s : State) : State := if s.acqBusy then rbPush (popped s) (nextInputs s).srcData else popped s

theorem step_bufferPart {s t : State} (hr : (nextInputs s).rst = false) (h : step s = .next t) :
    bufferPart t = bufferPart (popPushed s) := by
  obtain ⟨a, b, c, d, e, ha, hb, hc, hd, he, ht⟩ := step_stages hr h
  have hpop : acqPart a = acqPart (popped s) := acqPart_of_early ha
  have hbuf : bufferPart b = bufferPart (popped s) :=
    calc
      bufferPart b = bufferPart (tick a) := execIf_keeps (fun _ => exec_bufferPart rfl) hb
      _ = bufferPart a := rfl
      _ = bufferPart (popped s) := bufferPart_of_acqPart hpop
  have hbeat : bufferPart c = bufferPart (popPushed s) := by
    unfold popPushed
    rcases execIf_next.mp hc with ⟨hbusy, hc⟩ | ⟨hidle, rfl⟩
    · have hcopy : copyPart (tick a) = copyPart s := (copyPart_of_acqPart hpop).trans (copyPart_popped s)
      have habusy : (tick a).acqBusy = true := (acqBusy_of_copyPart hcopy).trans hbusy
      have hkeep : copyPart b = copyPart (tick a) := execIf_keeps (fun _ => exec_dmaDone_copyPart_of_busy habusy) hb
      have hbbusy : b.acqBusy = true := (acqBusy_of_copyPart hkeep).trans habusy
      rw [if_pos hbusy, exec_beat_bufferPart hbbusy hc, rbPush_congr _ hbuf]
    · rw [hidle]
      exact hbuf
  calc
    bufferPart t = bufferPart e :=
      execIf_keeps (fun hl => exec_bufferPart (actsOnBuffer_of_late (kind_hostOp_ne_event _) (by simp_all))) ht
    _ = bufferPart d := execIf_keeps (fun _ => exec_bufferPart rfl) he
    _ = bufferPart c := execIf_keeps (fun _ => exec_bufferPart rfl) hd
    _ = bufferPart (popPushed s) := hbeat

theorem popped_keeps_ringInv {s : State} (hs : RingInv s) : RingInv (popped s) := by
  unfold popped
  split
  next hp =>
    obtain ⟨-, hne⟩ := hp
    exact rbPop_keeps_ringInv hs hne
  next => exact hs

@[simp] theorem popped_cfg (s : State) : (popped s).cfg = s.cfg := by
  unfold popped
  split <;> rfl

/-- A pop is the queue's: it drops the head, of an empty queue nothing (42_ring_buffer R163, R165). -/
theorem unread_popped {s : State} (hs : RingInv s) :
    unread (popped s) = if popReq (nextInputs s) then (unread s).tail else unread s := by
  unfold popped
  cases hreq : popReq (nextInputs s) with
  | false => simp
  | true =>
    rcases Nat.eq_zero_or_pos (cnt s) with hzero | hne
    · have hnil : unread s = [] := unread_of_empty (by simp [rbEmpty, hzero])
      simp [hzero, hnil]
    · simp [hne, unread_of_nonempty hs hne]

/-- A cycle without reset is one cycle of the abstract queue. -/
theorem unread_popPushed {s : State} (hs : RingInv s) :
    unread (popPushed s) = queueCycle (capacity s.cfg) (popReq (nextInputs s))
      (if s.acqBusy then some (truncTo s.cfg.sampleW (nextInputs s).srcData) else none) (unread s) := by
  unfold popPushed
  cases s.acqBusy with
  | true =>
    rw [if_pos rfl, unread_rbPush (popped_keeps_ringInv hs), unread_popped hs, popped_cfg]
    rfl
  | false => exact unread_popped hs

/-! ## What a read of RB_DATA returns -/

/-- VALID stands in bit 31 (10_state R40). -/
theorem validWord_eq_ofNat (d : Sample) : validWord d = BitVec.ofNat 32 (2 ^ 31 + d.toNat) := by
  have hd := d.isLt
  have hhigh : (1#1 ++ 0#15).toNat = 2 ^ 15 := rfl
  apply BitVec.eq_of_toNat_eq
  rw [validWord, BitVec.toNat_append, ← Nat.shiftLeft_add_eq_or_of_lt hd, Nat.shiftLeft_eq, hhigh, BitVec.toNat_ofNat]
  omega

theorem exec_rdRbData_eq (s : State) :
    exec .rdRbData s = .next (if rbEmpty s then s.setRdata 0 else (rbPop s).setRdata (validWord (rbFront s))) := by
  have harm : exec .rdRbData s = execRdRbData s := rfl
  rw [harm, execRdRbData]
  split <;> rfl

/-- A cycle that reads RB_DATA drives what the read returns in the pre-state (40_cycle_and_bus R121). -/
theorem step_hRdata_of_popReq {s t : State} (hr : (nextInputs s).rst = false) (hp : popReq (nextInputs s) = true)
    (h : step s = .next t) : t.out.hRdata = if rbEmpty s then 0 else validWord (rbFront s) := by
  obtain ⟨hsel, hi⟩ := (popReq_iff _).mp hp
  obtain ⟨a, ha, hout⟩ := step_out hr h
  have hexec : exec .rdRbData (beginCycle s) = .next a := by rwa [hi, hsel] at ha
  have hempty : rbEmpty (beginCycle s) = rbEmpty s := rfl
  rw [exec_rdRbData_eq, hempty] at hexec
  cases hexec
  rw [hout]
  split <;> rfl

/-- Settles O40: the buffer goes through a cycle as the queue does, and a read returns the head of the pre-state's queue. -/
theorem ringRefinesDropOldestQueue : Obligations.RingRefinesDropOldestQueue := by
  intro s t hs hr h x
  constructor
  · exact (unread_congr (step_bufferPart hr h)).trans (unread_popPushed hs)
  · intro hp
    rw [step_hRdata_of_popReq hr hp h]
    cases he : rbEmpty s with
    | true =>
      rw [unread_of_empty he]
      rfl
    | false =>
      rw [unread_of_nonempty hs (rbEmpty_eq_false.mp he)]
      exact validWord_eq_ofNat _

end Sys2Proof.Machine
end

section
/-! PROOFS. The stop commands (43_acquisition_adapter R191, 44_synthesis_sequencer R221). -/

namespace Sys2Proof.Machine
open Sys2Proof

/-- Where no session runs, a stop leaves the synthesis state. -/
theorem exec_cmdSynStop_of_not_running {s : State} (h : s.synSt ≠ .running) :
    exec .cmdSynStop s = .next { s with lastRes := .ok } := by
  have harm : exec .cmdSynStop s = execCmdSynStop s := rfl
  rw [harm, execCmdSynStop, if_neg h]

/-- No session runs after a stop. -/
theorem synSt_ne_running_of_stop {s t : State} (h : exec .cmdSynStop s = .next t) : t.synSt ≠ .running := by
  cases h
  dsimp only
  split
  next => nofun
  next hs => exact hs

/-- Settles O28: what a stop writes, it finds written. -/
theorem stopsAreIdempotent : Obligations.StopsAreIdempotent := by
  intro s t
  constructor
  · intro h
    cases h
    rfl
  · intro h
    rw [exec_cmdSynStop_of_not_running (synSt_ne_running_of_stop h)]
    cases h
    rfl

end Sys2Proof.Machine
end


section
/-! PROOFS. The encoding: which operation each transaction decodes to, that every one of them is an operation of 30_encoding
R85, and that the encoder's word decodes back; and the cycle as its operations run one after another. -/

namespace Sys2Proof.Machine
open Sys2Proof

/-! ## Reads -/

theorem decodeRead_eq_rdRsvd_iff : ∀ a : RegAddr, decodeRead a = .rdRsvd a ↔ readReserved a = true := by decide

theorem wellFormed_decodeRead : ∀ a : RegAddr, (decodeRead a).WellFormed = true := by decide

/-- The addresses of RD_RSVD as R85 lists them. -/
theorem readReserved_iff (a : RegAddr) : readReserved a = true ↔ a.toNat ∈ [0x02, 0x0F] ∨ 0x19 ≤ a.toNat := by
  simp [readReserved]

/-! ## Commands -/

/-- The reserved command words are those above the last command, 5 (30_encoding R84). -/
theorem commandReserved_iff (w : Word) : commandReserved w = true ↔ 6 ≤ w.toNat := by
  simp only [commandReserved, Bool.or_eq_true, decide_eq_true_eq]
  omega

theorem decodeCommand_of_reserved {w : Word} (h : 6 ≤ w.toNat) : decodeCommand w = .cmdRsvd w := by
  have hne : ∀ k : Word, k.toNat < 6 → w ≠ k := by
    rintro k hk rfl
    exact absurd hk (Nat.not_lt.mpr h)
  simp [decodeCommand_eq, hne]

theorem eq_command_of_not_reserved {w : Word} (h : ¬ 6 ≤ w.toNat) :
    w = 0 ∨ w = 1 ∨ w = 2 ∨ w = 3 ∨ w = 4 ∨ w = 5 := by
  bv_omega

theorem wellFormed_decodeCommand (w : Word) : (decodeCommand w).WellFormed = true := by
  by_cases h : 6 ≤ w.toNat
  · rw [decodeCommand_of_reserved h]
    exact (commandReserved_iff w).mpr h
  · rcases eq_command_of_not_reserved h with rfl | rfl | rfl | rfl | rfl | rfl <;> rfl

/-! ## Writes -/

/-- The addresses of the specific write rows of 30_encoding R85, CMD among them. -/
def writeAddrs : List RegAddr := [0x02, 0x04, 0x09, 0x0A, 0x0B, 0x10, 0x11, 0x15, 0x16, 0x17]

/-- WR_IGNORED takes the addresses that no specific write row takes. -/
theorem writeIgnored_iff_not_mem : ∀ a : RegAddr, writeIgnored a = true ↔ a ∉ writeAddrs := by decide

/-- The addresses of WR_IGNORED as R85 lists them. -/
theorem writeIgnored_iff (a : RegAddr) :
    writeIgnored a = true ↔
      a.toNat ∈ [0x00, 0x01, 0x03, 0x05, 0x06, 0x07, 0x08, 0x0C, 0x0D, 0x0E, 0x0F, 0x12, 0x13, 0x14] ∨
        0x18 ≤ a.toNat := by
  simp only [writeIgnored, Bool.or_eq_true, Bool.and_eq_true, decide_eq_true_eq, List.mem_cons, List.not_mem_nil,
    or_false]
  omega

theorem decodeWrite_of_ignored {a : RegAddr} (w : Word) (h : writeIgnored a = true) : decodeWrite a w = .wrIgnored a w := by
  rw [writeIgnored_iff_not_mem] at h
  simp only [writeAddrs, List.mem_cons, List.not_mem_nil, or_false, not_or] at h
  simp only [decodeWrite, h, if_false]

theorem decodeCommand_ne_wrIgnored (w : Word) (a : RegAddr) (v : Word) : decodeCommand w ≠ .wrIgnored a v := by
  rw [decodeCommand_eq]
  split_ifs <;> nofun

/-- A specific write row answers its own well-formed operation, never WR_IGNORED. -/
theorem decodeWrite_of_row {a : RegAddr} (w : Word) (h : a ∈ writeAddrs) :
    (decodeWrite a w).WellFormed = true ∧ ∀ b v, decodeWrite a w ≠ .wrIgnored b v := by
  simp only [writeAddrs, List.mem_cons, List.not_mem_nil, or_false] at h
  rcases h with rfl | h
  · exact ⟨wellFormed_decodeCommand w, decodeCommand_ne_wrIgnored w⟩
  · rcases h with rfl | rfl | rfl | rfl | rfl | rfl | rfl | rfl | rfl <;> exact ⟨rfl, nofun⟩

theorem decodeWrite_eq_wrIgnored_iff (a : RegAddr) (w : Word) :
    decodeWrite a w = .wrIgnored a w ↔ writeIgnored a = true := by
  refine ⟨fun h => ?_, decodeWrite_of_ignored w⟩
  rw [writeIgnored_iff_not_mem]
  exact fun ha => (decodeWrite_of_row w ha).2 a w h

theorem wellFormed_decodeWrite (a : RegAddr) (w : Word) : (decodeWrite a w).WellFormed = true := by
  by_cases h : a ∈ writeAddrs
  · exact (decodeWrite_of_row w h).1
  · have hi : writeIgnored a = true := (writeIgnored_iff_not_mem a).mpr h
    rw [decodeWrite_of_ignored w hi]
    exact hi

/-- Every transaction is an operation (30_encoding R86). -/
theorem wellFormed_hostOp (x : Inputs) : (hostOp x).WellFormed = true := by
  rw [hostOp_eq]
  split
  · exact wellFormed_decodeWrite _ _
  · exact wellFormed_decodeRead _

/-! ## The round trip -/

@[simp] theorem decode_readWord (a : RegAddr) : decode (readWord a) = .ok (decodeRead a) := decode_htwWord false a 0

@[simp] theorem decode_writeWord (a : RegAddr) (w : Word) : decode (writeWord a w) = .ok (decodeWrite a w) :=
  decode_htwWord true a w

/-- An operand narrower than WDATA is the low part of the word that carries it (30_encoding R83). -/
theorem extractLsb'_zeroExtend {n : Nat} (v : BitVec n) (h : n ≤ 32) : (v.zeroExtend 32).extractLsb' 0 n = v := by
  rw [← BitVec.setWidth_eq_extractLsb' h]
  exact (BitVec.setWidth_setWidth_of_le v h).trans (BitVec.setWidth_eq v)

/-- A write whose row is known decodes back from its word. -/
theorem decode_writeWord_of_row {a : RegAddr} {w : Word} {i : Instr} (h : decodeWrite a w = i) :
    decode (writeWord a w) = .ok i := by
  rw [decode_writeWord, h]

/-- Settles O1: each row's word carries its address and operand, a catch-all's address or code is one that no other row
takes, and the event words set only the bits of their own condition. -/
theorem decodeOfEncode : Obligations.DecodeOfEncode := by
  intro i hw
  cases i with
  | rdRsvd a => exact (decode_readWord a).trans (congrArg _ ((decodeRead_eq_rdRsvd_iff a).mpr hw))
  | wrFault m => exact decode_writeWord_of_row (congrArg Instr.wrFault (extractLsb'_zeroExtend m (by decide)))
  | wrAcqChan c => exact decode_writeWord_of_row (congrArg Instr.wrAcqChan (extractLsb'_zeroExtend c (by decide)))
  | wrAcqBlk b => exact decode_writeWord_of_row (congrArg Instr.wrAcqBlk (extractLsb'_zeroExtend b (by decide)))
  | wrSynChan c => exact decode_writeWord_of_row (congrArg Instr.wrSynChan (extractLsb'_zeroExtend c (by decide)))
  | wrTblLen n => exact decode_writeWord_of_row (congrArg Instr.wrTblLen (extractLsb'_zeroExtend n (by decide)))
  | wrAcqRate | wrSynPeriod | wrTblAddr | wrTblData | cmdNop | cmdAcqStart | cmdAcqStop | cmdSynStart | cmdSynStop
  | cmdTblCommit => exact decode_writeWord_of_row rfl
  | cmdRsvd w => exact decode_writeWord_of_row (decodeCommand_of_reserved ((commandReserved_iff w).mp hw))
  | wrIgnored a w => exact decode_writeWord_of_row (decodeWrite_of_ignored w hw)
  | evReset | evDmaDone | evCopyBeat | evFire | evDacAccept => rfl
  | _ => exact decode_readWord _

/-! ## The statements on the decoder -/

/-- Settles O2: the decoder's own rows answer well-formed operations, and each catch-all takes what they leave. -/
theorem catchAllRowsTakeTheRest : Obligations.CatchAllRowsTakeTheRest := by
  intro x
  refine ⟨wellFormed_hostOp x, fun hread => ?_, fun hwrite => ?_⟩
  · rw [decodeHtw_hostWord, hread, ← readReserved_iff]
    exact decodeRead_eq_rdRsvd_iff x.hAddr
  · rw [decodeHtw_hostWord, hwrite, ← writeIgnored_iff]
    exact decodeWrite_eq_wrIgnored_iff x.hAddr x.hWdata

/-- Settles O3: each printed word is a read word or a write word of the register R90 names. -/
theorem printedWordsDecode : Obligations.PrintedWordsDecode :=
  ⟨decode_readWord 0x00, decode_readWord 0x06, decode_writeWord 0x02 1, decode_writeWord 0x02 5,
    decode_writeWord 0x02 0x10, decode_writeWord 0x11 2, decode_writeWord 0x17 300, decode_writeWord 0x04 7⟩

/-- Settles O4: a word of at least 6 is reserved, whichever of its two fields says so; the six others are the commands. -/
theorem commandDecoding : Obligations.CommandDecoding := by
  intro x hwrite haddr
  rw [decodeHtw_hostWord, hwrite, haddr]
  change decodeCommand x.hWdata = _
  generalize x.hWdata = w
  by_cases h : 6 ≤ w.toNat
  · rw [decodeCommand_of_reserved h]
    split
    next => rfl
    next hhigh =>
      split
      case h_7 => rfl
      all_goals omega
  · rcases eq_command_of_not_reserved h with rfl | rfl | rfl | rfl | rfl | rfl <;> rfl

/-! ## The cycle -/

/-- A cycle without reset, as its stages run one after another (40_cycle_and_bus R110 in the order of Machine/Cycle.lean). -/
theorem step_eq_stages {s : State} (hr : (nextInputs s).rst = false) :
    step s =
      andThen (execIf ((nextInputs s).hSel && runsBeforeEvents (hostOp (nextInputs s))) (hostOp (nextInputs s))
        (beginCycle s)) fun t =>
      andThen (execIf (nextInputs s).dmaDone (.evDmaDone (nextInputs s).dmaPtr (nextInputs s).dmaLen) (tick t)) fun t =>
      andThen (execIf s.acqBusy (.evCopyBeat (nextInputs s).srcData) t) fun t =>
      andThen (execIf (s.dacValid && (nextInputs s).dacReady) .evDacAccept t) fun t =>
      andThen (execIf (fireCond s) .evFire t) fun t =>
      execIf ((nextInputs s).hSel && !runsBeforeEvents (hostOp (nextInputs s))) (hostOp (nextInputs s)) t := by
  rw [step_of_no_reset s hr]
  simp only [runOps_filter_hostOps, runOps_eventOps (s := beginCycle s) hr, andThen_assoc]
  rfl

/-- Settles O6: the cycle's stages, with the firing condition of 30_encoding R82 written out. -/
theorem stepRunsTheCyclesOperations : Obligations.StepRunsTheCyclesOperations := by
  intro s
  refine ⟨step_of_reset, fun hr => ?_⟩
  rw [step_eq_stages hr]
  simp only [execIf, fireCond_eq_true]
  rfl

end Sys2Proof.Machine
end

section
/-! PROOFS. The host's writes as R110 writes them (40_cycle_and_bus R115): the late write of a cycle finds the
configuration of the pre-state, so it is R110's `host_write`. -/

namespace Sys2Proof.Machine
open Sys2Proof Sys2Proof.Claims Reference

/-! ## Commands -/

/-- The checks of CMD_ACQ_START after the first, as R190 writes them. -/
theorem acqCfgValid_eq_false {s : State} :
    acqCfgValid s = false ↔ s.acqRate = 0 ∨ s.acqBlk = 0 ∨ s.acqBlk.toNat > capacity s.cfg := by
  simp [acqCfgValid, or_iff_not_imp_left]

/-- The check of CMD_TBL_COMMIT on the length, as R145 writes it. -/
theorem tblLenValid_eq_false {s : State} :
    tblLenValid s = false ↔ s.tblLen = 0 ∨ s.tblLen.toNat > tblDepth s.cfg := by
  simp [tblLenValid, or_iff_not_imp_left]

theorem exec_cmdAcqStart_eq (s : State) :
    exec .cmdAcqStart s = .next (
      if s.acqRun then { s with lastRes := .stateErr }
      else if s.acqRate = 0 ∨ s.acqBlk = 0 ∨ s.acqBlk.toNat > capacity s.cfg then { s with lastRes := .cfgErr }
      else if s.inp.acqCfgOk = false then { s with lastRes := .cfgErr }
      else { s with acqRun := true, lastRes := .ok }) := by
  have harm : exec .cmdAcqStart s = execCmdAcqStart s := rfl
  simp only [harm, execCmdAcqStart, Bool.not_eq_true', acqCfgValid_eq_false, ← apply_ite Host.Outcome.next]
  rfl

theorem exec_cmdSynStart_eq (s : State) :
    exec .cmdSynStart s = .next (
      if s.synSt = .running then { s with lastRes := .stateErr }
      else if s.synSt = .uninit then { s with lastRes := .notReady }
      else if s.synPeriod = 0 then { s with lastRes := .cfgErr }
      else { s with synSt := .running, idx := 0, pcnt := s.synPeriod - 1, lastRes := .ok }) := by
  have harm : exec .cmdSynStart s = execCmdSynStart s := rfl
  simp only [harm, execCmdSynStart, ← apply_ite Host.Outcome.next]
  rfl

theorem exec_cmdSynStop_eq (s : State) :
    exec .cmdSynStop s = .next (
      if s.synSt = .running then { s with synSt := .stopped, lastRes := .ok } else { s with lastRes := .ok }) := by
  have harm : exec .cmdSynStop s = execCmdSynStop s := rfl
  rw [harm, execCmdSynStop]
  split <;> rfl

theorem exec_cmdTblCommit_eq (s : State) :
    exec .cmdTblCommit s = .next (
      if s.synSt ≠ .uninit then { s with lastRes := .stateErr }
      else if s.tblLen = 0 ∨ s.tblLen.toNat > tblDepth s.cfg then { s with lastRes := .cfgErr }
      else { s with synSt := .ready, lastRes := .ok }) := by
  have harm : exec .cmdTblCommit s = execCmdTblCommit s := rfl
  simp only [harm, execCmdTblCommit, tblLocked, decide_eq_true_eq, Bool.not_eq_true', tblLenValid_eq_false,
    ← apply_ite Host.Outcome.next]
  rfl

theorem hostCommand_of_reserved {x : Inputs} (s t : State) (h : 6 ≤ x.hWdata.toNat) :
    hostCommand s x t = { t with lastRes := .badCmd } := by
  unfold hostCommand
  split
  case h_7 => rfl
  all_goals omega

/-- A write to CMD does what R118 says of its word. -/
theorem exec_decodeCommand (s : State) : exec (decodeCommand s.inp.hWdata) s = .next (hostCommand s s.inp s) := by
  by_cases h : 6 ≤ s.inp.hWdata.toNat
  · rw [decodeCommand_of_reserved h, hostCommand_of_reserved s s h]
    rfl
  · unfold hostCommand
    rcases eq_command_of_not_reserved h with h | h | h | h | h | h <;> rw [h]
    · rfl
    · exact exec_cmdAcqStart_eq s
    · rfl
    · exact exec_cmdSynStart_eq s
    · exact exec_cmdSynStop_eq s
    · exact exec_cmdTblCommit_eq s

/-! ## The dispatch table -/

/-- A lockable write whose lock is a proposition. -/
theorem writeUnless_decide (p : Prop) [Decidable p] (s t : State) :
    writeUnless (decide p) s t = .next (if p then { s with lastRes := .stateErr } else { t with lastRes := .ok }) := by
  simp only [writeUnless, decide_eq_true_eq]
  rfl

theorem hostWrite_of_ignored {x : Inputs} (s t : State) (h : writeIgnored x.hAddr = true) : hostWrite s x t = t := by
  rw [writeIgnored_iff] at h
  unfold hostWrite
  split
  case h_10 => rfl
  all_goals simp_all

/-- A write other than of FAULT does what the dispatch table of R115 says of its address. -/
theorem exec_decodeWrite (s : State) (hf : s.inp.hAddr ≠ 0x04) :
    exec (decodeWrite s.inp.hAddr s.inp.hWdata) s = .next (hostWrite s s.inp s) := by
  by_cases ha : s.inp.hAddr ∈ writeAddrs
  · unfold hostWrite
    simp only [writeAddrs, List.mem_cons, List.not_mem_nil, or_false, hf, false_or] at ha
    rcases ha with h | h | h | h | h | h | h | h | h <;> rw [h]
    · exact exec_decodeCommand s
    · rfl
    · rfl
    · rfl
    · exact writeUnless_decide _ s _
    · exact writeUnless_decide _ s _
    · exact writeUnless_decide _ s _
    · exact writeUnless_decide _ s _
    · exact writeUnless_decide _ s _
  · have hi := (writeIgnored_iff_not_mem _).mpr ha
    rw [decodeWrite_of_ignored _ hi, hostWrite_of_ignored s s hi]
    rfl

/-- `hostWrite` reads of the pre-state only the configuration. -/
theorem hostWrite_congr {s s' : State} (h : configPart s' = configPart s) (x : Inputs) (t : State) :
    hostWrite s' x t = hostWrite s x t := by
  simp only [configPart, Prod.mk.injEq] at h
  obtain ⟨hcfg, hrun, -, hrate, hblk, hst, hmem, hlen, haddr, -, hper, -⟩ := h
  simp only [hostWrite, hostCommand, hcfg, hrun, hrate, hblk, hst, hmem, hlen, haddr, hper]

/-- The host's write of the cycle, if there is one, on a state `t` (40_cycle_and_bus R110). -/
def hostWrites (s : State) (x : Inputs) (t : State) : State :=
  if x.hSel = true ∧ x.hWe = true then hostWrite s x t else t

/-- Of the writes only that of FAULT runs before the events. -/
theorem early_decodeWrite (a : RegAddr) (w : Word) : runsBeforeEvents (decodeWrite a w) = true ↔ a = 0x04 := by
  constructor
  · intro h
    obtain ⟨m, hm⟩ := eq_wrFault_of_early_write (kind_decodeWrite a w) h
    by_contra ha
    unfold decodeWrite at hm
    rw [decodeCommand_eq] at hm
    split_ifs at hm
  · rintro rfl
    rfl

theorem hostWrite_of_fault {x : Inputs} (s t : State) (h : x.hAddr = 0x04) : hostWrite s x t = t := by
  unfold hostWrite
  rw [h]
  rfl

/-- The last stage of a cycle: it finds the configuration of the pre-state, so it is R110's `host_write`. -/
theorem late_stage {s e : State} {x : Inputs} (hcfg : configPart e = configPart s) (hinp : e.inp = x) :
    execIf (x.hSel && !runsBeforeEvents (hostOp x)) (hostOp x) e = .next (hostWrites s x e) := by
  subst hinp
  unfold hostWrites execIf
  rw [hostOp_eq, ← hostWrite_congr hcfg]
  cases hsel : e.inp.hSel with
  | false => rfl
  | true =>
    cases hwe : e.inp.hWe with
    | false => simp [runsBeforeEvents_decodeRead]
    | true =>
      by_cases ha : e.inp.hAddr = 0x04
      · simp [(early_decodeWrite _ _).mpr ha, hostWrite_of_fault e e ha]
      · simp [(early_decodeWrite _ _).not.mpr ha, exec_decodeWrite e ha]

end Sys2Proof.Machine
end

section
/-! PROOFS. R110's cycle as what each of its sub-functions writes, field by field. The host's write and the events
write apart. -/

namespace Sys2Proof.Machine
open Sys2Proof Sys2Proof.Claims Reference

/-! ## The sub-functions -/

/-- The beat of this cycle, if there is one, is the last of its block (43_acquisition_adapter R183). -/
def lastBeat (s : State) : Bool := s.acqBusy && s.cpIdx.toNat + 1 == s.cpLen.toNat

/-- A block with samples is accepted: its copy begins (43_acquisition_adapter R181). -/
def beginsCopy (s : State) (x : Inputs) : Bool := acceptedBlock s x && x.dmaLen != 0

/-- A block of length 0 is accepted (43_acquisition_adapter R186). -/
def emptyBlock (s : State) (x : Inputs) : Bool := acceptedBlock s x && x.dmaLen == 0

/-- The pop of the cycle takes a sample (42_ring_buffer R163). -/
def popEff (s : State) (x : Inputs) : Bool := popReq x && decide (0 < cnt s)

/-- The FAULT bits the host clears in the cycle (60_exceptions R284). -/
def clearMask (x : Inputs) : FaultBits := if x.hSel ∧ x.hWe ∧ x.hAddr = 0x04 then x.hWdata.extractLsb' 0 3 else 0

/-- The state with another FAULT register. -/
def State.withFault (s : State) (f : FaultBits) : State := { s with fault := f }

/-- What `acq_step` writes, field by field (43_acquisition_adapter R180). -/
def adapterWrites (s : State) (x : Inputs) (t : State) : State :=
  { t with
    acqBusy := if lastBeat s then false else if beginsCopy s x then true else t.acqBusy
    cpBase := if beginsCopy s x then truncTo s.cfg.addrW x.dmaPtr else t.cpBase
    cpLen := if beginsCopy s x then x.dmaLen else t.cpLen
    cpIdx := if lastBeat s || beginsCopy s x then 0 else if s.acqBusy then s.cpIdx + 1 else t.cpIdx
    ackQ := lastBeat s || emptyBlock s x
    acqBlks := if lastBeat s || emptyBlock s x then s.acqBlks + 1 else t.acqBlks
    acqSamples := if s.acqBusy then s.acqSamples + 1 else t.acqSamples }

theorem lastBeat_of_idle {s : State} (h : s.acqBusy = false) : lastBeat s = false := by simp [lastBeat, h]

/-- With no copy and no accepted block only the acknowledge of the last cycle ends. -/
theorem adapterWrites_of_none {s : State} {x : Inputs} (t : State) (hidle : s.acqBusy = false)
    (ha : acceptedBlock s x = false) : adapterWrites s x t = { t with ackQ := false } := by
  simp [adapterWrites, lastBeat_of_idle hidle, beginsCopy, emptyBlock, ha, hidle]

/-- An accepted block is counted and acknowledged at once, or its copy begins (43_acquisition_adapter R181, R186). -/
theorem adapterWrites_of_accepted {s : State} {x : Inputs} (t : State) (hidle : s.acqBusy = false)
    (ha : acceptedBlock s x = true) :
    adapterWrites s x t =
      if x.dmaLen = 0 then { t with ackQ := true, acqBlks := s.acqBlks + 1 }
      else { t with
        acqBusy := true, cpBase := truncTo s.cfg.addrW x.dmaPtr, cpLen := x.dmaLen, cpIdx := 0, ackQ := false } := by
  by_cases hl : x.dmaLen = 0#16 <;>
    simp [adapterWrites, beginsCopy, emptyBlock, lastBeat_of_idle hidle, ha, hidle, hl]

/-- During a copy `acq_step` advances it, whatever the completion port says (43_acquisition_adapter R183, R184). -/
theorem adapterWrites_of_busy {s : State} (x : Inputs) (t : State) (hbusy : s.acqBusy = true) :
    adapterWrites s x t =
      if s.cpIdx.toNat + 1 = s.cpLen.toNat then
        { t with acqBusy := false, cpIdx := 0, ackQ := true, acqBlks := s.acqBlks + 1, acqSamples := s.acqSamples + 1 }
      else { t with cpIdx := s.cpIdx + 1, ackQ := false, acqSamples := s.acqSamples + 1 } := by
  have ha : acceptedBlock s x = false := by simp [acceptedBlock, hbusy]
  by_cases hl : s.cpIdx.toNat + 1 = s.cpLen.toNat <;>
    simp [adapterWrites, lastBeat, beginsCopy, emptyBlock, ha, hl, hbusy]

theorem acqStep_eq (s : State) (x : Inputs) (t : State) : acqStep s x t = adapterWrites s x t := by
  have hcond : (x.dmaDone = true ∧ s.acqRun = true ∧ ¬s.acqBusy = true) ↔ acceptedBlock s x = true := by
    simp [acceptedBlock, and_assoc]
  unfold acqStep
  simp only [hcond]
  cases hb : s.acqBusy with
  | true =>
    have ha : acceptedBlock s x = false := by simp [acceptedBlock, hb]
    simp only [adapterWrites_of_busy x t hb, ha, Bool.false_eq_true, if_true, if_false]
  | false =>
    cases ha : acceptedBlock s x with
    | true =>
      simp only [adapterWrites_of_accepted t hb ha, Bool.false_eq_true, if_true, if_false]
    | false =>
      rw [adapterWrites_of_none t hb ha]
      rfl

/-- What `rb_step` writes, field by field (42_ring_buffer R160). -/
def ringWrites (s : State) (x : Inputs) (t : State) : State :=
  { t with
    rbMem := if s.acqBusy then s.rbMem.store (slotOf s.cfg s.wp) (truncTo s.cfg.sampleW x.srcData) else t.rbMem
    wp := if s.acqBusy then nextPtr s.cfg s.wp else t.wp
    rp := if popEff s x || (s.acqBusy && rbFull s) then nextPtr s.cfg s.rp else t.rp
    ovfCnt := if s.acqBusy && rbFull s && !popEff s x then s.ovfCnt + 1 else t.ovfCnt }

theorem rbStep_eq (s : State) (x : Inputs) (t : State) :
    rbStep s s.acqBusy x.srcData (popReq x) t = ringWrites s x t := by
  have hpop : (popReq x && decide (cnt s > 0)) = popEff s x := rfl
  unfold rbStep ringWrites
  rw [hpop]
  cases s.acqBusy with
  | false => cases popEff s x <;> rfl
  | true => cases popEff s x <;> cases rbFull s <;> rfl

/-- What `syn_step` writes, field by field (44_synthesis_sequencer R210). -/
def sequencerWrites (s : State) (x : Inputs) (t : State) : State :=
  { t with
    pcnt := if s.synSt = .running then (if s.pcnt = 0 then s.synPeriod - 1 else s.pcnt - 1) else t.pcnt
    idx := if acceptedFiring s x then nextIdx s else t.idx
    synFires := if acceptedFiring s x then s.synFires + 1 else t.synFires
    dacValid := acceptedFiring s x || (!(s.dacValid && x.dacReady) && t.dacValid)
    dacData := if acceptedFiring s x then tblRead s s.idx.toNat else t.dacData }

theorem synStep_eq (s : State) (x : Inputs) (t : State) : synStep s x t = sequencerWrites s x t := by
  have hfire : Reference.fire s = fireCond s := rfl
  unfold synStep sequencerWrites nextIdx
  rw [acceptedFiring_eq, hfire]
  cases hf : fireCond s with
  | true =>
    obtain ⟨hrun, hzero⟩ := fireCond_eq_true.mp hf
    rw [if_pos hrun, if_pos hrun, if_pos hzero]
    cases s.dacValid <;> cases x.dacReady <;> simp
  | false =>
    have hcount : s.synSt = .running → s.pcnt ≠ 0 := fun hs hz => by simp [fireCond_eq_true.mpr ⟨hs, hz⟩] at hf
    by_cases hs : s.synSt = .running
    · rw [if_pos hs, if_pos hs, if_neg (hcount hs)]
      cases s.dacValid <;> cases x.dacReady <;> simp
    · rw [if_neg hs, if_neg hs]
      cases s.dacValid <;> cases x.dacReady <;> simp

/-- What the events of R110's cycle write into `t`, with the merge of FAULT (60_exceptions R284). -/
def eventsOf (s : State) (x : Inputs) (t : State) : State :=
  (sequencerWrites s x (ringWrites s x (adapterWrites s x t))).withFault
    ((s.fault &&& ~~~clearMask x) ||| setAcq s x ||| setSyn s x)

/-- The state of R110's cycle before the host's write and the events: ports sampled, outputs driven. -/
def begun (s : State) (x : Inputs) : State :=
  { s with
    env := s.env.tail
    inp := x
    cycle := s.cycle + 1
    out := { registeredOutputs s with hRdata := if x.hSel ∧ ¬x.hWe then readval s x.hAddr else 0 } }

/-- R110's cycle: the host's write, and the events written over it. -/
theorem cycle_eq {s : State} {x : Inputs} (hr : x.rst = false) :
    cycle s x = eventsOf s x (hostWrites s x (begun s x)) := by
  unfold eventsOf
  rw [← acqStep_eq, ← rbStep_eq, ← synStep_eq, cycle, hr]
  rfl

/-! ## The host's write and the events -/

/-- A command that starts a session finds none running, and an event moves the index and the period counter only in a running
one. -/
theorem eventsOf_hostCommand (s : State) (x : Inputs) (t : State) :
    eventsOf s x (hostCommand s x t) = hostCommand s x (eventsOf s x t) := by
  unfold hostCommand
  split
  case h_2 | h_5 | h_6 => split_ifs <;> rfl
  case h_4 =>
    split_ifs with hs
    case neg =>
      have hfire : acceptedFiring s x = false := by simp [acceptedFiring, hs]
      simp [eventsOf, sequencerWrites, ringWrites, adapterWrites, State.withFault, hs, hfire]
    all_goals rfl
  all_goals rfl

/-- The host's write and the events of a cycle write apart, so their order does not matter. -/
theorem eventsOf_hostWrite (s : State) (x : Inputs) (t : State) :
    eventsOf s x (hostWrite s x t) = hostWrite s x (eventsOf s x t) := by
  unfold hostWrite
  split
  case h_1 => exact eventsOf_hostCommand s x t
  case h_10 => rfl
  all_goals split_ifs <;> rfl

theorem eventsOf_hostWrites (s : State) (x : Inputs) (t : State) :
    eventsOf s x (hostWrites s x t) = hostWrites s x (eventsOf s x t) := by
  unfold hostWrites
  split
  · exact eventsOf_hostWrite s x t
  · rfl

end Sys2Proof.Machine
end

section
/-! PROOFS. The cycle of the machine, stage by stage: each stage is a state written out, and together they leave what
the sub-functions of R110 leave that all read the pre-state (log entry 4). -/

namespace Sys2Proof.Machine
open Sys2Proof Sys2Proof.Claims Reference

/-! ## The early operation -/

theorem decodeRead_of_not_row : ∀ a : RegAddr, a ∉ readRows.map Prod.fst → decodeRead a = .rdRsvd a := by decide

theorem readval_of_not_row (s : State) {a : RegAddr} (h : a ∉ readRows.map Prod.fst) : readval s a = 0 := by
  simp only [readRows, List.map_append, List.map_cons, List.map_nil, List.mem_append, List.mem_cons, List.not_mem_nil] at h
  unfold readval
  split
  case h_24 => rfl
  all_goals bv_omega

/-- A read returns R110's `readval` and, of RB_DATA, pops; it changes nothing else. -/
theorem exec_decodeRead (s : State) (a : RegAddr) :
    exec (decodeRead a) s = .next { s with
      out := { s.out with hRdata := readval s a }
      rp := if a = 0x06 ∧ 0 < cnt s then nextPtr s.cfg s.rp else s.rp } := by
  by_cases hp : a = 0x06
  · subst hp
    have hd : decodeRead 0x06 = .rdRbData := rfl
    rw [hd, exec_rdRbData_eq]
    rcases Nat.eq_zero_or_pos (cnt s) with he | he
    · have hempty : rbEmpty s = true := by simp [rbEmpty, he]
      have hval : readval s 0x06 = 0 := if_neg (by omega)
      simp only [hempty, hval, he, Nat.lt_irrefl, and_false, if_true, if_false]
      rfl
    · have hval : readval s 0x06 = validWord (rbFront s) := if_pos he
      simp only [rbEmpty_eq_false.mpr he, hval, he, and_self, Bool.false_eq_true, if_true, if_false]
      rfl
  simp only [hp, false_and, if_false]
  by_cases h : a ∈ readRows.map Prod.fst
  · simp only [readRows, List.map_append, List.map_cons, List.map_nil, List.mem_append, List.mem_cons, List.not_mem_nil,
      or_false, or_assoc, hp, false_or] at h
    rcases h with rfl | rfl | rfl | rfl | rfl | rfl | rfl | rfl | rfl | rfl | rfl | rfl | rfl | rfl | rfl | rfl | rfl |
      rfl | rfl | rfl | rfl | rfl <;> rfl
  · rw [decodeRead_of_not_row a h, readval_of_not_row s h]
    rfl

/-- A cycle without reset after its early host operation. -/
def earlyOf (s : State) (x : Inputs) : State :=
  { begun s x with
    rp := if popEff s x then nextPtr s.cfg s.rp else s.rp
    fault := s.fault &&& ~~~clearMask x }

/-- A mask of no bit clears none. -/
theorem and_not_clearMask {x : Inputs} (f : FaultBits) (h : ¬(x.hSel = true ∧ x.hWe = true ∧ x.hAddr = 0x04)) :
    f &&& ~~~clearMask x = f := by
  rw [clearMask, if_neg h]
  exact BitVec.and_allOnes

/-- A cycle that neither reads nor clears FAULT has no early operation. -/
theorem earlyOf_of_none {s : State} (hread : ¬((nextInputs s).hSel = true ∧ ¬(nextInputs s).hWe = true))
    (hclear : ¬((nextInputs s).hSel = true ∧ (nextInputs s).hWe = true ∧ (nextInputs s).hAddr = 0x04)) :
    earlyOf s (nextInputs s) = beginCycle s := by
  have hpop : popEff s (nextInputs s) = false := by
    unfold popEff popReq
    cases hsel : (nextInputs s).hSel <;> simp_all
  unfold earlyOf begun
  rw [hpop, and_not_clearMask _ hclear, if_neg hread]
  rfl

/-- The first stage of a cycle: a read, the clear of FAULT, or nothing. -/
theorem early_stage (s : State) :
    execIf ((nextInputs s).hSel && runsBeforeEvents (hostOp (nextInputs s))) (hostOp (nextInputs s)) (beginCycle s) =
      .next (earlyOf s (nextInputs s)) := by
  rw [hostOp_eq]
  cases hsel : (nextInputs s).hSel with
  | false =>
    rw [earlyOf_of_none (by simp [hsel]) (by simp [hsel])]
    rfl
  | true =>
    cases hwe : (nextInputs s).hWe with
    | false =>
      have hpop : popEff s (nextInputs s) = decide ((nextInputs s).hAddr = 0x06 ∧ 0 < cnt s) := by
        rw [Bool.eq_iff_iff]
        simp [popEff, popReq, hsel, hwe]
      have hclear := and_not_clearMask (x := nextInputs s) s.fault (by simp [hwe])
      simp only [execIf, runsBeforeEvents_decodeRead, exec_decodeRead, earlyOf, begun, hpop, hclear, hsel, hwe,
        decide_eq_true_eq, Bool.false_eq_true, not_false_eq_true, and_self, if_true, if_false]
      rfl
    | true =>
      by_cases ha : (nextInputs s).hAddr = 0x04
      · have hpop : popEff s (nextInputs s) = false := by simp [popEff, popReq, hwe]
        simp only [execIf, earlyOf, begun, hpop, clearMask, ha, hsel, hwe, not_true_eq_false, and_false, and_self, if_true]
        rfl
      · have hlate := (early_decodeWrite (nextInputs s).hAddr (nextInputs s).hWdata).not.mpr ha
        rw [earlyOf_of_none (by simp [hwe]) (fun ⟨_, _, h⟩ => ha h)]
        simp [execIf, hlate]

/-! ## The events -/

theorem exec_evDmaDone_eq (p : SrcAddr) (l : Len) (s : State) :
    exec (.evDmaDone p l) s = .next (
      if s.acqRun = false then s else if s.acqBusy then s.raise acqReentry else acceptBlock p l (checkDesync l s)) := by
  have harm : exec (.evDmaDone p l) s = execEvDmaDone p l s := rfl
  simp only [harm, execEvDmaDone, Bool.not_eq_true', ← apply_ite Host.Outcome.next]

theorem exec_evCopyBeat_of_busy {d : Sample} {s : State} (hb : s.acqBusy = true) :
    exec (.evCopyBeat d) s = .next (advanceCopy { rbPush s d with acqSamples := s.acqSamples + 1 }) := by
  have harm : exec (.evCopyBeat d) s = execEvCopyBeat d s := rfl
  rw [harm, execEvCopyBeat, if_pos hb]
  rfl

/-- The model checks the length before it accepts the block; the flag and the block are written apart. -/
theorem acceptBlock_checkDesync (p : SrcAddr) (l : Len) (s : State) :
    acceptBlock p l (checkDesync l s) =
      (acceptBlock p l s).withFault (s.fault ||| if l ≠ s.acqBlk then acqDesync else 0) := by
  unfold checkDesync acceptBlock State.withFault
  split_ifs <;> simp [State.raise]

/-- The completion stage of a cycle: without a copy it does what `acq_step` does, during one it can only be a reentry
(43_acquisition_adapter R180, R184). -/
theorem dma_stage (a : State) (x : Inputs) :
    execIf x.dmaDone (.evDmaDone x.dmaPtr x.dmaLen) (tick a) = .next
      ((if a.acqBusy then tick a else adapterWrites a x (tick a)).withFault (a.fault ||| setAcq a x)) := by
  have hcopy : (tick a).acqBusy = a.acqBusy := rfl
  by_cases hd : x.dmaDone = true ∧ a.acqRun = true
  · obtain ⟨hdone, hrun⟩ := id hd
    rw [execIf, if_pos hdone, exec_evDmaDone_eq, tick_acqRun, if_neg (by simp [hrun]), hcopy, setAcq, if_pos hd]
    cases hb : a.acqBusy with
    | true => rfl
    | false =>
      have ha : acceptedBlock (tick a) x = true := by simp [acceptedBlock, hdone, hrun, hb]
      have hwrites : adapterWrites a x (tick a) = acceptBlock x.dmaPtr x.dmaLen (tick a) :=
        adapterWrites_of_accepted (s := tick a) (tick a) hb ha
      simp only [acceptBlock_checkDesync, hwrites, Bool.false_eq_true, if_false]
      rfl
  · have hstage : execIf x.dmaDone (.evDmaDone x.dmaPtr x.dmaLen) (tick a) = .next (tick a) := by
      rw [execIf, exec_evDmaDone_eq]
      simp_all
    have hset : setAcq a x = 0#3 := if_neg hd
    rw [hstage, hset, BitVec.or_zero]
    split
    next => rfl
    next hb =>
      have ha : acceptedBlock a x = false := by simp_all [acceptedBlock]
      rw [adapterWrites_of_none _ (by simpa using hb) ha]
      rfl

theorem advanceCopy_of_last {s : State} (h : s.cpIdx.toNat + 1 = s.cpLen.toNat) :
    advanceCopy s = { s with acqBusy := false, cpIdx := 0, ackQ := true, acqBlks := s.acqBlks + 1 } := if_pos h

theorem advanceCopy_of_not_last {s : State} (h : ¬ s.cpIdx.toNat + 1 = s.cpLen.toNat) :
    advanceCopy s = { s with cpIdx := s.cpIdx + 1 } := if_neg h

/-- The beat stage of a cycle: the push, and during a copy what `acq_step` does (43_acquisition_adapter R183). -/
theorem beat_stage (a : State) (x : Inputs) (f : FaultBits) :
    execIf a.acqBusy (.evCopyBeat x.srcData)
      ((if a.acqBusy then tick a else adapterWrites a x (tick a)).withFault f) = .next
      ((adapterWrites a x (if a.acqBusy then rbPush (tick a) x.srcData else tick a)).withFault f) := by
  cases hb : a.acqBusy with
  | false => rfl
  | true =>
    simp only [if_true, execIf]
    rw [exec_evCopyBeat_of_busy (by exact hb), adapterWrites_of_busy x _ hb]
    by_cases hl : a.cpIdx.toNat + 1 = a.cpLen.toNat
    · rw [advanceCopy_of_last (by exact hl), if_pos hl]
      rfl
    · rw [advanceCopy_of_not_last (by exact hl), if_neg hl]
      rfl

theorem accept_stage {c : State} {b : Bool} (hb : b = (c.dacValid && c.inp.dacReady)) :
    execIf b .evDacAccept c = .next { c with dacValid := c.dacValid && !c.inp.dacReady } := by
  have hnext : execIf b .evDacAccept c =
      .next (if b && (c.dacValid && c.inp.dacReady) then { c with dacValid := false } else c) := by
    cases b <;> rfl
  rw [hnext, ← dacAccept_stage hb hnext]

theorem exec_evFire_of_due {s : State} (hf : fireCond s = true) :
    exec .evFire s = .next (
      if s.dacValid && !s.inp.dacReady then { s with pcnt := s.synPeriod - 1, fault := s.fault ||| synReentry }
      else acceptFiring { s with pcnt := s.synPeriod - 1 }) := by
  have harm : exec .evFire s = execEvFire s := rfl
  rw [harm, execEvFire, if_pos hf]
  rfl

theorem setSyn_eq (s : State) (x : Inputs) :
    setSyn s x = if fireCond s && s.dacValid && !x.dacReady then synReentry else 0 := rfl

/-- The accept and the firing find the sequencer as `tick` left it, and do what `syn_step` does (44_synthesis_sequencer
R210). -/
theorem syn_stages {s c : State} {x : Inputs} (hsyn : synPart c = synPart (tick s)) (hinp : c.inp = x) :
    andThen (execIf (s.dacValid && x.dacReady) .evDacAccept c) (execIf (fireCond s) .evFire) =
      .next ((sequencerWrites s x c).withFault (c.fault ||| setSyn s x)) := by
  subst hinp
  simp only [synPart, Prod.mk.injEq, tick_synSt, tick_pcnt, tick_synFires, tick_dacValid, tick_cfg, tick_tblMem,
    tick_tblLen, tick_idx, tick_synPeriod] at hsyn
  obtain ⟨hcfg, hst, hmem, hlen, -, -, hper, hpcnt, hidx, hfires, hvalid, -⟩ := hsyn
  rw [accept_stage (by rw [hvalid]), andThen_next, setSyn_eq]
  unfold sequencerWrites State.withFault
  rw [acceptedFiring_eq, ← hvalid]
  cases hf : fireCond s with
  | false =>
    have hcount :
        (if s.synSt = .running then (if s.pcnt = 0 then s.synPeriod - 1 else s.pcnt - 1) else c.pcnt) = c.pcnt := by
      by_cases hs : s.synSt = .running
      · have hne : s.pcnt ≠ 0 := fun hz => by simp [fireCond_eq_true.mpr ⟨hs, hz⟩] at hf
        rw [hpcnt, if_pos hs, if_neg hne, if_pos ⟨hs, hne⟩]
      · exact if_neg hs
    have hacc : (!(c.dacValid && c.inp.dacReady) && c.dacValid) = (c.dacValid && !c.inp.dacReady) := by
      cases c.dacValid <;> simp
    rw [hcount, hacc]
    simp [execIf]
  | true =>
    obtain ⟨hrun, hzero⟩ := fireCond_eq_true.mp hf
    have hdue : fireCond { c with dacValid := c.dacValid && !c.inp.dacReady } = true :=
      fireCond_eq_true.mpr ⟨hst.trans hrun, by simp [hpcnt, hzero]⟩
    simp only [execIf, if_true, exec_evFire_of_due hdue, if_pos hrun, if_pos hzero, Bool.true_and]
    cases hd : c.dacValid && !c.inp.dacReady with
    | true => simp_all
    | false =>
      have hread : tblRead s s.idx.toNat = tblRead c c.idx.toNat := by simp only [tblRead, hmem, hcfg, hidx]
      have hkeep : c.fault ||| (0 : FaultBits) = c.fault := BitVec.or_zero
      have hnext : nextIdx s = nextIdx c := by simp only [nextIdx, hidx, hlen]
      simp only [Bool.false_eq_true, if_false, if_true, Bool.not_false, Bool.true_or, Bool.false_and, hread, hnext,
        ← hfires, ← hper, hkeep]
      rfl

/-! ## The pop and the push -/

/-- The remainder goes up with the number where it does not start over. -/
theorem mod_eq_succ_mod_sub_one {k n : Nat} (h : 0 < (k + 1) % n) : k % n = (k + 1) % n - 1 := by
  rcases Nat.lt_or_ge 1 n with hn | hn
  · have hk : k % n < n := Nat.mod_lt _ (by omega)
    rw [Nat.add_mod_eq_ite, Nat.mod_eq_of_lt hn] at h ⊢
    split_ifs at h ⊢ <;> omega
  · interval_cases n
    · simp
    · omega

/-- The distance to the next pointer, counting modulo `n`, is one less. -/
theorem sub_succ_mod {w r n : Nat} (hn : 0 < n) (h : 0 < (w + (n - r % n)) % n) :
    (w + (n - (r + 1) % n % n)) % n = (w + (n - r % n)) % n - 1 := by
  have hr := Nat.mod_lt r hn
  have hsucc : (r + 1) % n = if r % n + 1 = n then 0 else r % n + 1 := by
    rw [← Nat.mod_add_mod]
    split
    next hlast => rw [hlast, Nat.mod_self]
    next => exact Nat.mod_eq_of_lt (by omega)
  rw [Nat.mod_mod, hsucc]
  generalize r % n = m at *
  split
  next hlast =>
    have hdist : w + (n - m) = w + 1 := by omega
    rw [hdist] at h ⊢
    rw [Nat.sub_zero, Nat.add_mod_right]
    exact mod_eq_succ_mod_sub_one h
  next =>
    have hdist : w + (n - m) = w + (n - (m + 1)) + 1 := by omega
    rw [hdist] at h ⊢
    exact mod_eq_succ_mod_sub_one h

/-- An effective pop takes one sample from the count, wherever the pointers stand: `cnt_rbPop` without the invariant. -/
theorem cnt_rbPop_of_nonempty {s : State} (hcfg : s.cfg.legal) (hne : 0 < cnt s) : cnt (rbPop s) = cnt s - 1 := by
  have hpos := capacity_pos s.cfg
  unfold cnt at *
  rw [rbPop_rp, rbPop_cfg, rbPop_wp, nextPtr_toNat _ hcfg]
  exact sub_succ_mod (by omega) hne

/-- A popped buffer is not full. -/
theorem rbFull_rbPop {s : State} (hcfg : s.cfg.legal) (hle : cnt s ≤ capacity s.cfg) (hne : 0 < cnt s) :
    rbFull (rbPop s) = false := by
  have hcnt := cnt_rbPop_of_nonempty hcfg hne
  refine decide_eq_false ?_
  rw [hcnt, rbPop_cfg]
  omega

/-- A push finds the buffer full where it was full and nothing was popped from it (42_ring_buffer R164). -/
theorem rbFull_earlyOf {s : State} (x : Inputs) (hcfg : s.cfg.legal) (hle : cnt s ≤ capacity s.cfg) :
    rbFull (tick (earlyOf s x)) = (rbFull s && !popEff s x) := by
  cases hp : popEff s x with
  | false =>
    have hearly : rbFull (tick (earlyOf s x)) = rbFull s := by
      simp only [rbFull, cnt, earlyOf, hp]
      rfl
    simp [hearly]
  | true =>
    have hne : 0 < cnt s := by simp_all [popEff]
    have hearly : rbFull (tick (earlyOf s x)) = rbFull (rbPop s) := by
      simp only [rbFull, cnt, earlyOf, hp]
      rfl
    simp [hearly, rbFull_rbPop hcfg hle hne]

/-! ## The whole cycle -/

/-- A cycle without reset after its completion and its beat. -/
def sampledOf (s : State) (x : Inputs) : State :=
  (adapterWrites s x (if s.acqBusy then rbPush (tick (earlyOf s x)) x.srcData else tick (earlyOf s x))).withFault
    ((s.fault &&& ~~~clearMask x) ||| setAcq s x)

/-- A cycle without reset before its late write. -/
def stagesOf (s : State) (x : Inputs) : State :=
  (sequencerWrites s x (sampledOf s x)).withFault ((s.fault &&& ~~~clearMask x) ||| setAcq s x ||| setSyn s x)

theorem synPart_sampledOf (s : State) (x : Inputs) : synPart (sampledOf s x) = synPart (tick s) := by
  unfold sampledOf
  split <;> rfl

theorem sampledOf_inp (s : State) (x : Inputs) : (sampledOf s x).inp = x := by
  unfold sampledOf
  split <;> rfl

theorem configPart_sampledOf (s : State) (x : Inputs) : configPart (sampledOf s x) = configPart s := by
  unfold sampledOf
  split <;> rfl

theorem configPart_stagesOf (s : State) (x : Inputs) : configPart (stagesOf s x) = configPart s :=
  configPart_sampledOf s x

/-- A cycle without reset is its stages and then the host's late write (40_cycle_and_bus R110). -/
theorem step_eq_hostWrites {s : State} (hr : (nextInputs s).rst = false) :
    step s = .next (hostWrites s (nextInputs s) (stagesOf s (nextInputs s))) := by
  generalize hx : nextInputs s = x at *
  have hdma := dma_stage (earlyOf s x) x
  have hbeat := beat_stage (earlyOf s x) x ((s.fault &&& ~~~clearMask x) ||| setAcq s x)
  have hsyn := syn_stages (synPart_sampledOf s x) (sampledOf_inp s x)
  have hlate := late_stage (configPart_stagesOf s x) (sampledOf_inp s x)
  rw [step_eq_stages (hx ▸ hr), early_stage, hx, andThen_next, hdma, andThen_next]
  refine (congrArg (andThen · _) hbeat).trans ?_
  rw [andThen_next, ← andThen_assoc]
  exact (congrArg (andThen · _) hsyn).trans hlate

/-- A pop and then a push do what `rb_step` does with both at once (42_ring_buffer R164). -/
theorem rbPush_earlyOf {s : State} (x : Inputs) (hcfg : s.cfg.legal) (hle : cnt s ≤ capacity s.cfg) :
    (if s.acqBusy then rbPush (tick (earlyOf s x)) x.srcData else tick (earlyOf s x)) =
      (ringWrites s x (tick (begun s x))).withFault (s.fault &&& ~~~clearMask x) := by
  have hfull := rbFull_earlyOf x hcfg hle
  unfold ringWrites
  cases s.acqBusy with
  | false => cases hp : popEff s x <;> simp only [earlyOf, hp] <;> rfl
  | true =>
    simp only [if_true, rbPush, hfull, Bool.true_and]
    cases hp : popEff s x <;> cases rbFull s <;> simp only [earlyOf, hp] <;> rfl

/-- `syn_step` writes a running period counter itself, so the count of `tick` before it is lost. -/
theorem sequencerWrites_tick (s : State) (x : Inputs) (t : State) :
    sequencerWrites s x { t with pcnt := (tick s).pcnt } = sequencerWrites s x { t with pcnt := s.pcnt } := by
  unfold sequencerWrites tick
  by_cases hs : s.synSt = .running <;> simp [hs]

/-- The stages one after another leave what R110's sub-functions leave that all read the pre-state (log entry 4). -/
theorem stagesOf_eq_eventsOf {s : State} (x : Inputs) (hcfg : s.cfg.legal) (hle : cnt s ≤ capacity s.cfg) :
    stagesOf s x = eventsOf s x (begun s x) := by
  unfold stagesOf sampledOf
  rw [rbPush_earlyOf x hcfg hle]
  have hcount := sequencerWrites_tick s x (ringWrites s x (adapterWrites s x (begun s x)))
  have hmerge := congrArg (State.withFault · ((s.fault &&& ~~~clearMask x) ||| setAcq s x ||| setSyn s x)) hcount
  exact hmerge

/-- Settles O7: the stages of the model leave what the events of R110 write over the pre-state, the late write is R110's
`host_write`, and that write and the events write apart. -/
theorem stepIsTheSpecsCycle : Obligations.StepIsTheSpecsCycle := by
  intro s hcfg hle
  cases hr : (nextInputs s).rst with
  | true =>
    rw [step_of_reset hr, cycle, hr]
    rfl
  | false => rw [step_eq_hostWrites hr, cycle_eq hr, eventsOf_hostWrites, stagesOf_eq_eventsOf _ hcfg hle]

end Sys2Proof.Machine
end

section
/-! PROOFS. The two event paths (40_cycle_and_bus R111): what a cycle leaves in the sequencer depends on the
sequencer, the host and the DAC, and what it leaves in the adapter and the ring on those, the host and the
environment's sampling side. -/

namespace Sys2Proof.Machine
open Sys2Proof Sys2Proof.Claims Reference

/-! ## The sequencer's path -/

/-- The state `r` with the sequencer's part of `s`. -/
abbrev State.withSynOf (r s : State) : State :=
  { r with
    cfg := s.cfg, synSt := s.synSt, tblMem := s.tblMem, tblLen := s.tblLen, tblAddr := s.tblAddr, synChan := s.synChan
    synPeriod := s.synPeriod, pcnt := s.pcnt, idx := s.idx, synFires := s.synFires, dacValid := s.dacValid
    dacData := s.dacData }

theorem eq_withSynOf {r s : State} (h : synPart r = synPart s) : r = r.withSynOf s := by
  simp only [synPart, Prod.mk.injEq] at h
  simp only [State.withSynOf, ← h]

theorem synPart_hostCommand (s t r u : State) {x y : Inputs} (hw : y.hWdata = x.hWdata) :
    synPart (hostCommand (r.withSynOf s) y (u.withSynOf t)) = synPart (hostCommand s x t) := by
  unfold hostCommand
  rw [hw]
  split
  case h_1 | h_3 | h_7 => rfl
  all_goals dsimp only; split_ifs <;> rfl

theorem synPart_hostWrite (s t r u : State) {x y : Inputs} (ha : y.hAddr = x.hAddr) (hw : y.hWdata = x.hWdata) :
    synPart (hostWrite (r.withSynOf s) y (u.withSynOf t)) = synPart (hostWrite s x t) := by
  have hcmd := synPart_hostCommand s t r u hw
  unfold hostWrite
  rw [hw, ha]
  split
  case h_1 => exact hcmd
  case h_10 => rfl
  all_goals dsimp only; split_ifs <;> rfl

theorem synPart_sequencerWrites {c d : State} (s : State) (x : Inputs) (h : synPart c = synPart d) :
    synPart (sequencerWrites s x c) = synPart (sequencerWrites s x d) := by
  rw [eq_withSynOf h]
  rfl

theorem synPart_stagesOf (s : State) (x : Inputs) : synPart (stagesOf s x) = synPart (sequencerWrites s x (tick s)) :=
  synPart_sequencerWrites s x (synPart_sampledOf s x)

theorem synPart_sequencerWrites_tick {r s : State} {x y : Inputs} (h : synPart r = synPart s)
    (hd : y.dacReady = x.dacReady) :
    synPart (sequencerWrites r y (tick r)) = synPart (sequencerWrites s x (tick s)) := by
  rw [eq_withSynOf h]
  unfold sequencerWrites acceptedFiring
  rw [hd]
  rfl

/-- The host's write, where there is one, keeps two states agreeing on the sequencer. -/
theorem synPart_hostWrites {s t r u : State} {x y : Inputs} (hx : hostPart y = hostPart x) (hs : synPart r = synPart s)
    (ht : synPart u = synPart t) : synPart (hostWrites r y u) = synPart (hostWrites s x t) := by
  simp only [hostPart, Prod.mk.injEq] at hx
  obtain ⟨-, hsel, hwe, haddr, hdata⟩ := hx
  unfold hostWrites
  rw [hsel, hwe]
  split
  · rw [eq_withSynOf hs, eq_withSynOf ht]
    exact synPart_hostWrite s t r u haddr hdata
  · exact ht

/-! ## The adapter's and the ring's path -/

/-- The state `r` with the adapter's and the ring buffer's part of `s`. -/
abbrev State.withAcqOf (r s : State) : State :=
  { r with
    cfg := s.cfg, rbMem := s.rbMem, wp := s.wp, rp := s.rp, ovfCnt := s.ovfCnt, acqRun := s.acqRun, acqBusy := s.acqBusy
    cpBase := s.cpBase, cpLen := s.cpLen, cpIdx := s.cpIdx, ackQ := s.ackQ, acqChan := s.acqChan, acqRate := s.acqRate
    acqBlk := s.acqBlk, acqBlks := s.acqBlks, acqSamples := s.acqSamples }

theorem eq_withAcqOf {r s : State} (h : acqPart r = acqPart s) : r = r.withAcqOf s := by
  simp only [acqPart, Prod.mk.injEq] at h
  simp only [State.withAcqOf, ← h]

theorem acqPart_hostCommand (s t r u : State) {x y : Inputs} (hw : y.hWdata = x.hWdata) (hc : y.acqCfgOk = x.acqCfgOk) :
    acqPart (hostCommand (r.withAcqOf s) y (u.withAcqOf t)) = acqPart (hostCommand s x t) := by
  unfold hostCommand
  rw [hw, hc]
  split
  case h_1 | h_3 | h_7 => rfl
  all_goals dsimp only; split_ifs <;> rfl

theorem acqPart_hostWrite (s t r u : State) {x y : Inputs} (ha : y.hAddr = x.hAddr) (hw : y.hWdata = x.hWdata)
    (hc : y.acqCfgOk = x.acqCfgOk) :
    acqPart (hostWrite (r.withAcqOf s) y (u.withAcqOf t)) = acqPart (hostWrite s x t) := by
  have hcmd := acqPart_hostCommand s t r u hw hc
  unfold hostWrite
  rw [hw, ha]
  split
  case h_1 => exact hcmd
  case h_10 => rfl
  all_goals dsimp only; split_ifs <;> rfl

theorem acqPart_hostWrites {s t r u : State} {x y : Inputs} (hx : hostPart y = hostPart x) (hc : y.acqCfgOk = x.acqCfgOk)
    (hs : acqPart r = acqPart s) (ht : acqPart u = acqPart t) : acqPart (hostWrites r y u) = acqPart (hostWrites s x t) := by
  simp only [hostPart, Prod.mk.injEq] at hx
  obtain ⟨-, hsel, hwe, haddr, hdata⟩ := hx
  unfold hostWrites
  rw [hsel, hwe]
  split
  · rw [eq_withAcqOf hs, eq_withAcqOf ht]
    exact acqPart_hostWrite s t r u haddr hdata hc
  · exact ht

theorem acqPart_earlyOf (s r : State) (x : Inputs) (b : Bool) :
    acqPart (tick (earlyOf (r.withAcqOf s) { x with dacReady := b })) = acqPart (tick (earlyOf s x)) := rfl

theorem acqPart_rbPush {u v : State} (d : Sample) (h : acqPart u = acqPart v) :
    acqPart (rbPush u d) = acqPart (rbPush v d) := by
  have hring := rbFull_congr (ringPart_of_acqPart h)
  rw [eq_withAcqOf h] at hring ⊢
  simp only [rbPush, hring]
  rfl

theorem acqPart_adapterWrites (s r : State) (x : Inputs) (b : Bool) {u v : State} (h : acqPart u = acqPart v) :
    acqPart (adapterWrites (r.withAcqOf s) { x with dacReady := b } u) = acqPart (adapterWrites s x v) := by
  rw [eq_withAcqOf h]
  rfl

/-- Neither the sequencer's stages nor the merge of FAULT touch the adapter or the ring. -/
theorem acqPart_stagesOf_eq (s : State) (x : Inputs) :
    acqPart (stagesOf s x) =
      acqPart (adapterWrites s x (if s.acqBusy then rbPush (tick (earlyOf s x)) x.srcData else tick (earlyOf s x))) :=
  rfl

/-- What the stages leave in the adapter and the ring depends on these alone, and not on the DAC. -/
theorem acqPart_stagesOf {s r : State} (x : Inputs) (b : Bool) (hs : acqPart r = acqPart s) :
    acqPart (stagesOf r { x with dacReady := b }) = acqPart (stagesOf s x) := by
  have hearly := acqPart_earlyOf s r x b
  rw [eq_withAcqOf hs, acqPart_stagesOf_eq, acqPart_stagesOf_eq]
  refine acqPart_adapterWrites s r x b ?_
  dsimp only
  split
  · exact acqPart_rbPush _ hearly
  · exact hearly

/-! ## Two cycles -/

/-- After a reset cycle both parts are those of the reset state, but for the parameters and the RAMs. -/
theorem reset_parts {s t : State} (hr : (nextInputs s).rst = true) (h : step s = .next t) :
    synPart t = synPart { State.reset with cfg := s.cfg, tblMem := s.tblMem } ∧
      acqPart t = acqPart { State.reset with cfg := s.cfg, rbMem := s.rbMem } := by
  rw [step_of_reset hr] at h
  cases h
  exact ⟨rfl, rfl⟩

theorem synPart_step_congr {s₁ s₂ t₁ t₂ : State} (h₁ : step s₁ = .next t₁) (h₂ : step s₂ = .next t₂)
    (hx : hostPart (nextInputs s₁) = hostPart (nextInputs s₂)) (hs : synPart s₁ = synPart s₂)
    (hd : (nextInputs s₁).dacReady = (nextInputs s₂).dacReady) : synPart t₁ = synPart t₂ := by
  have hrst : (nextInputs s₁).rst = (nextInputs s₂).rst := congrArg Prod.fst hx
  cases hr : (nextInputs s₂).rst with
  | true =>
    obtain ⟨hreset₁, -⟩ := reset_parts (hrst.trans hr) h₁
    obtain ⟨hreset₂, -⟩ := reset_parts hr h₂
    rw [hreset₁, hreset₂]
    simp only [synPart, Prod.mk.injEq] at hs
    simp only [synPart, hs]
  | false =>
    rw [step_eq_hostWrites hr] at h₂
    rw [step_eq_hostWrites (hrst.trans hr)] at h₁
    cases h₁
    cases h₂
    have hstages : synPart (stagesOf s₁ (nextInputs s₁)) = synPart (stagesOf s₂ (nextInputs s₂)) := by
      rw [synPart_stagesOf, synPart_stagesOf, synPart_sequencerWrites_tick hs hd]
    exact synPart_hostWrites hx hs hstages

theorem acqPart_step_congr {s₁ s₂ t₁ t₂ : State} (h₁ : step s₁ = .next t₁) (h₂ : step s₂ = .next t₂)
    (hx : nextInputs s₁ = { nextInputs s₂ with dacReady := (nextInputs s₁).dacReady }) (hs : acqPart s₁ = acqPart s₂) :
    acqPart t₁ = acqPart t₂ := by
  have hrst : (nextInputs s₁).rst = (nextInputs s₂).rst := by rw [hx]
  cases hr : (nextInputs s₂).rst with
  | true =>
    obtain ⟨-, hreset₁⟩ := reset_parts (hrst.trans hr) h₁
    obtain ⟨-, hreset₂⟩ := reset_parts hr h₂
    rw [hreset₁, hreset₂]
    simp only [acqPart, Prod.mk.injEq] at hs
    simp only [acqPart, hs]
  | false =>
    rw [step_eq_hostWrites hr] at h₂
    rw [step_eq_hostWrites (hrst.trans hr), hx] at h₁
    cases h₁
    cases h₂
    exact acqPart_hostWrites (by rfl) (by rfl) hs (acqPart_stagesOf _ _ hs)

/-- Settles O54: each stage of a cycle and the host's write keep two states agreeing on the one path, whatever the
other holds. -/
theorem eventPathsAreIndependent : Obligations.EventPathsAreIndependent := by
  intro s₁ s₂ t₁ t₂ h₁ h₂ hx
  refine ⟨fun hs hd => synPart_step_congr h₁ h₂ hx hs hd, fun hs hdone hptr hlen hdata hok => ?_⟩
  refine acqPart_step_congr h₁ h₂ ?_ hs
  simp only [hostPart, Prod.mk.injEq] at hx
  obtain ⟨hrst, hsel, hwe, haddr, hwdata⟩ := hx
  simp only [← hrst, ← hsel, ← hwe, ← haddr, ← hwdata, ← hdone, ← hptr, ← hlen, ← hdata, ← hok]

end Sys2Proof.Machine
end

section
/-! PROOFS. Who writes the configuration and the result code (40_cycle_and_bus R117, R122). -/

namespace Sys2Proof.Machine
open Sys2Proof Sys2Proof.Claims Reference

/-! ## Field ownership -/

/-- No operation changes the elaboration parameters (00_scope R6). -/
theorem exec_cfg {i : Instr} {s t : State} (h : exec i s = .next t) : t.cfg = s.cfg := by
  cases exec_effect h with
  | blockAccepted p l => simp
  | beat d => simp
  | _ => rfl

theorem step_cfg {s t : State} (h : step s = .next t) : t.cfg = s.cfg :=
  step_preserves (P := fun u => u.cfg = s.cfg) (fun _ hu => hu) (fun _ hu => hu)
    (fun _ _ _ hu he => (exec_cfg he).trans hu) rfl h

/-- Settles O48: the one stage of a cycle that writes the configuration is the host's late write. -/
theorem onlyHostWritesConfigure : Obligations.OnlyHostWritesConfigure := by
  intro s t h
  refine ⟨step_cfg h, fun hr hw => ?_⟩
  have hnone : ¬((nextInputs s).hSel = true ∧ (nextInputs s).hWe = true) := by simpa using hw
  have hconfig : configPart t = configPart s := by
    rw [step_eq_hostWrites hr, hostWrites, if_neg hnone] at h
    cases h
    exact configPart_stagesOf s (nextInputs s)
  simp only [configPart, Prod.mk.injEq] at hconfig
  simp only [hconfig, and_self]

/-! ## The result code -/

/-- The addresses of the writes that produce a result: those of the dispatch table but FAULT's. -/
theorem producesResult_iff (x : Inputs) :
    producesResult x = true ↔ (x.hSel = true ∧ x.hWe = true) ∧ x.hAddr ∈ writeAddrs ∧ x.hAddr ≠ 0x04 := by
  have haddr : ∀ a : RegAddr, [0x02, 0x09, 0x0A, 0x0B, 0x10, 0x11, 0x15, 0x16, 0x17].contains a.toNat = true ↔
      a ∈ writeAddrs ∧ a ≠ 0x04 := by decide
  rw [producesResult, Bool.and_eq_true, Bool.and_eq_true, haddr]

theorem hostWrites_of_no_result {x : Inputs} (s t : State) (h : producesResult x = false) :
    (hostWrites s x t).lastRes = t.lastRes := by
  unfold hostWrites
  split
  next hw =>
    by_cases hf : x.hAddr = 0x04
    · rw [hostWrite_of_fault s t hf]
    · have ha : x.hAddr ∉ writeAddrs := fun ha => by simp [(producesResult_iff x).mpr ⟨hw, ha, hf⟩] at h
      rw [hostWrite_of_ignored s t ((writeIgnored_iff_not_mem _).mpr ha)]
  next => rfl

theorem hostCommand_lastRes (s t u : State) (x : Inputs) : (hostCommand s x t).lastRes = (hostCommand s x u).lastRes := by
  unfold hostCommand
  split
  case h_1 | h_3 | h_7 => rfl
  all_goals split_ifs <;> rfl

/-- The code a result-producing write stores is decided by the pre-state's configuration and the ports. -/
theorem hostWrites_lastRes {x : Inputs} (s t u : State) (h : producesResult x = true) :
    (hostWrites s x t).lastRes = (hostWrites s x u).lastRes := by
  obtain ⟨hw, ha, hf⟩ := (producesResult_iff x).mp h
  have hcmd := hostCommand_lastRes s t u x
  unfold hostWrites
  rw [if_pos hw, if_pos hw]
  unfold hostWrite
  simp only [writeAddrs, List.mem_cons, List.not_mem_nil, or_false, hf, false_or] at ha
  rcases ha with ha | ha | ha | ha | ha | ha | ha | ha | ha <;> rw [ha]
  · exact hcmd
  all_goals dsimp only; split_ifs <;> rfl

/-- Settles O51: only the late write stores a code, and the code it stores is decided by the configuration and the ports. -/
theorem onlyResultWritesSetLastRes : Obligations.OnlyResultWritesSetLastRes := by
  intro s t hr h
  rw [step_eq_hostWrites hr] at h
  cases h
  constructor
  · intro hp
    have hconfig := configPart_stagesOf s (nextInputs s)
    simp only [configPart, Prod.mk.injEq] at hconfig
    rw [hostWrites_of_no_result _ _ hp]
    simp only [hconfig]
  · intro hp r u hu
    have hsame : hostWrites { s with lastRes := r } (nextInputs s) = hostWrites s (nextInputs s) := rfl
    have hinp : nextInputs { s with lastRes := r } = nextInputs s := rfl
    rw [step_eq_hostWrites (s := { s with lastRes := r }) hr, hinp, hsame] at hu
    cases hu
    exact hostWrites_lastRes s _ _ hp

end Sys2Proof.Machine
end

section
/-! PROOFS. A cycle with one host operation, and the operations of the bus that belong to no sub-block
(40_cycle_and_bus R114 to R125). -/

namespace Sys2Proof.Machine
open Sys2Proof Sys2Proof.Claims Reference

/-! ## The step and the decoder -/

/-- Settles O5: of the cycle's stages only that of the transaction is left, before `tick` or after it. -/
theorem stepRunsTheDecodedHostOperation : Obligations.StepRunsTheDecodedHostOperation := by
  rintro s i hr hsel rfl hdone hbusy hdac hpcnt
  have hfire : fireCond s = false := by
    rw [Bool.eq_false_iff, Ne, fireCond_eq_true]
    exact fun ⟨hrun, hzero⟩ => hpcnt hrun hzero
  rw [step_eq_stages hr, hsel, hdone, hbusy, hdac, hfire]
  have hop : hostOp (nextInputs s) = decodeHtw (hostWord (nextInputs s)) := rfl
  cases hb : runsBeforeEvents (decodeHtw (hostWord (nextInputs s))) <;> simp [execIf, hop, hb]

/-! ## Words of the bus operations -/

theorem readAt_of_decodeRead {a : RegAddr} {i : Instr} (h : decodeRead a = i) : ReadAt a i := by
  intro w
  rw [decode_htwWord, ← h]
  rfl

/-- A side-effect free read returns its word. -/
theorem readsAs_of_word {i : Instr} {s : State} {w : Word} (h : exec i s = readReg w s) : ReadsAs i s w.toNat :=
  ⟨w, rfl, h⟩

/-- Packed fields add up. -/
theorem toNat_append_eq_add {n m : Nat} (a : BitVec n) (b : BitVec m) : (a ++ b).toNat = 2 ^ m * a.toNat + b.toNat := by
  rw [BitVec.toNat_append, ← Nat.shiftLeft_add_eq_or_of_lt b.isLt, Nat.shiftLeft_eq, Nat.mul_comm]

/-- The STATUS word as the sum of its fields (10_state R38). -/
theorem statusWord_toNat (s : State) :
    (statusWord s).toNat =
      s.acqRun.toNat + 2 * s.acqBusy.toNat + 2 ^ 2 * synNumber s.synSt + 2 ^ 4 * s.dacValid.toNat +
        (if cnt s = 0 then 2 ^ 5 else 0) + (if cnt s = capacity s.cfg then 2 ^ 6 else 0) +
        (if s.fault = 0 then 0 else 2 ^ 7) + 2 ^ 8 * resNumber s.lastRes := by
  have hsyn : (synCode s.synSt).toNat = synNumber s.synSt := by cases s.synSt <;> rfl
  have hres : (resCode s.lastRes).toNat = resNumber s.lastRes := by cases s.lastRes <;> rfl
  have hempty : 2 ^ 5 * (rbEmpty s).toNat = if cnt s = 0 then 2 ^ 5 else 0 := by
    unfold rbEmpty
    split <;> simp_all
  have hfull : 2 ^ 6 * (rbFull s).toNat = if cnt s = capacity s.cfg then 2 ^ 6 else 0 := by
    unfold rbFull
    split <;> simp_all
  have hany : 2 ^ 7 * (faultAny s).toNat = if s.fault = 0 then 0 else 2 ^ 7 := by
    unfold faultAny
    split <;> simp_all
  rw [← hempty, ← hfull, ← hany]
  simp only [statusWord, toNat_append_eq_add, BitVec.toNat_ofBool, BitVec.toNat_ofNat, hsyn, hres]
  omega

/-- The PARAMS word as the sum of its fields, which legal parameters fit (10_state R34). -/
theorem paramsWord_toNat {p : Params} (h : p.legal) :
    (paramsWord p).toNat = p.capLog2 + 2 ^ 4 * p.tblLog2 + 2 ^ 9 * p.sampleW + 2 ^ 14 * p.dacW + 2 ^ 19 * p.addrW := by
  obtain ⟨hcap, ⟨-, hsample⟩, ⟨-, hdac⟩, htbl, -, haddr⟩ := h
  simp only [paramsWord, toNat_append_eq_add, BitVec.toNat_ofNat]
  omega

/-! ## The statements -/

/-- Settles O10: each address is a row of the read table, and each word is packed from fields that fit their bits. -/
theorem busReads : Obligations.BusReads := by
  refine ⟨⟨readAt_of_decodeRead rfl, readAt_of_decodeRead rfl, readAt_of_decodeRead rfl, readAt_of_decodeRead rfl,
    fun a ha => ?_⟩, fun s => ⟨readsAs_of_word (w := idWord) rfl, fun hcfg => ?_, ?_, ?_,
      fun a => readsAs_of_word (w := 0) rfl⟩⟩
  · exact readAt_of_decodeRead ((decodeRead_eq_rdRsvd_iff a).mpr ((readReserved_iff a).mpr ha))
  · rw [← paramsWord_toNat hcfg]
    exact readsAs_of_word rfl
  · rw [← statusWord_toNat]
    exact readsAs_of_word rfl
  · have hword : (s.fault.zeroExtend 32).toNat = s.fault.toNat := BitVec.toNat_setWidth_of_le (by decide)
    rw [← hword]
    exact readsAs_of_word rfl

/-- Settles O16: the addresses outside the dispatch table are those of WR_IGNORED, whose arm answers its own state. -/
theorem ignoredWritesChangeNothing : Obligations.IgnoredWritesChangeNothing := by
  refine ⟨fun a ha w => ?_, fun a w s => rfl⟩
  have hrows : ∀ a : RegAddr, a.toNat ∉ [0x02, 0x04, 0x09, 0x0A, 0x0B, 0x10, 0x11, 0x15, 0x16, 0x17] →
      writeIgnored a = true := by decide
  rw [decode_htwWord, if_pos rfl, decodeWrite_of_ignored w (hrows a ha)]

/-- Settles O17: a reserved word is one of at least 6, whichever of its fields says so. -/
theorem nopAndReservedCommands : Obligations.NopAndReservedCommands := by
  refine ⟨decode_writeWord 0x02 0, fun w hw => ?_, fun w s => ⟨rfl, rfl⟩⟩
  have h : 6 ≤ w.toNat := by omega
  rw [decode_htwWord, if_pos rfl, ← decodeCommand_of_reserved h]
  rfl

end Sys2Proof.Machine
end

section
/-! PROOFS. The waveform table's load port and commit (41_waveform_table R140 to R146): the one lock of its three writes, and
the table that no cycle changes after a commit. -/

namespace Sys2Proof.Machine
open Sys2Proof Sys2Proof.Claims

/-! ## Words of the load port -/

theorem writeAt_of_decodeWrite {a : RegAddr} {f : Word → Instr} (h : ∀ w, decodeWrite a w = f w) : WriteAt a f := by
  intro w
  rw [decode_htwWord, ← h]
  rfl

/-- A side-effect free read of a narrower word returns its value. -/
theorem readsAs_of_zeroExtend {n : Nat} {i : Instr} {s : State} {v : BitVec n} (hn : n ≤ 32)
    (h : exec i s = readReg (v.zeroExtend 32) s) : ReadsAs i s v.toNat := by
  have hword : (v.zeroExtend 32).toNat = v.toNat := BitVec.toNat_setWidth_of_le hn
  rw [← hword]
  exact readsAs_of_word h

/-- Settles O15: each word is a register or a table entry zero-extended, and an entry never written is cut to `DAC_W` bits. -/
theorem tableReads : Obligations.TableReads := by
  refine ⟨⟨readAt_of_decodeRead rfl, readAt_of_decodeRead rfl, readAt_of_decodeRead rfl⟩, fun s => ?_⟩
  have hdata : ReadsAs .rdTblData s (tblRead s s.tblAddr.toNat).toNat := readsAs_of_zeroExtend (by decide) rfl
  refine ⟨readsAs_of_zeroExtend (by decide) rfl, readsAs_of_zeroExtend (by decide) rfl, fun v hv => ?_, fun hnone => ?_⟩
  · rwa [tblRead, hv] at hdata
  · rw [tblRead, hnone] at hdata
    exact ⟨_, truncTo_toNat_lt _ _, hdata⟩

/-! ## The lock -/

/-- Before the commit a load-port write is performed. -/
theorem writeUnless_tblLocked_of_uninit {s : State} (h : s.synSt = .uninit) (t : State) :
    writeUnless (tblLocked s) s t = .next { t with lastRes := .ok } := by
  rw [tblLocked, writeUnless_decide, if_neg (not_not.mpr h)]

/-- After the commit a load-port write is refused (90_conflicts C4). -/
theorem writeUnless_tblLocked_of_committed {s : State} (h : s.synSt ≠ .uninit) (t : State) :
    writeUnless (tblLocked s) s t = .next { s with lastRes := .stateErr } := by
  rw [tblLocked, writeUnless_decide, if_pos h]

/-! ## The values written -/

theorem tblDepth_le {p : Params} (h : p.legal) : tblDepth p ≤ 2 ^ 16 := by
  obtain ⟨-, -, -, htbl, -⟩ := h
  exact Nat.pow_le_pow_right (by decide) htbl

theorem tblAddrOf_toNat {p : Params} (w : Word) (h : p.legal) : (tblAddrOf p w).toNat = w.toNat % tblDepth p := by
  rw [tblAddrOf, BitVec.toNat_ofNat, Nat.mod_eq_of_lt]
  exact (Nat.mod_lt _ (tblDepth_pos p)).trans_le (tblDepth_le h)

theorem nextTblAddr_toNat {p : Params} (a : BitVec 16) (h : p.legal) :
    (nextTblAddr p a).toNat = (a.toNat + 1) % tblDepth p := by
  rw [nextTblAddr, BitVec.toNat_ofNat, Nat.mod_eq_of_lt]
  exact (Nat.mod_lt _ (tblDepth_pos p)).trans_le (tblDepth_le h)

theorem satVmax_toNat {p : Params} (v : Word) (h : p.legal) : (satVmax p v).toNat = min v.toNat (vmax p) := by
  obtain ⟨-, -, ⟨-, hdac⟩, -⟩ := h
  have hfits : 2 ^ p.dacW ≤ 2 ^ 16 := Nat.pow_le_pow_right (by decide) hdac
  have hle : min v.toNat (vmax p) ≤ 2 ^ p.dacW - 1 := Nat.min_le_right _ _
  have hpos : 0 < 2 ^ p.dacW := Nat.two_pow_pos _
  rw [satVmax, BitVec.toNat_ofNat, Nat.mod_eq_of_lt (by omega)]

/-! ## Writes and commit -/

/-- Settles O20: the three writes have one lock, and what they store is cut to a width that legal parameters fit. -/
theorem tableLoadWrites : Obligations.TableLoadWrites := by
  refine ⟨⟨writeAt_of_decodeWrite fun _ => rfl, writeAt_of_decodeWrite fun _ => rfl, writeAt_of_decodeWrite fun _ => rfl⟩,
    fun s => ⟨fun hu => ⟨fun n => ?_, fun hcfg w => ?_, fun hcfg w => ?_⟩, fun hc n w => ⟨?_, ?_, ?_⟩⟩⟩
  · exact writeUnless_tblLocked_of_uninit hu _
  · exact ⟨tblAddrOf s.cfg w, tblAddrOf_toNat w hcfg, writeUnless_tblLocked_of_uninit hu _⟩
  · exact ⟨s.tblMem.store s.tblAddr.toNat (satVmax s.cfg w), nextTblAddr s.cfg s.tblAddr, satVmax s.cfg w,
      nextTblAddr_toNat _ hcfg, satVmax_toNat w hcfg, fun b => Memory.cellAt_store _ _ b _,
      writeUnless_tblLocked_of_uninit hu _⟩
  · exact writeUnless_tblLocked_of_committed hc _
  · exact writeUnless_tblLocked_of_committed hc _
  · exact writeUnless_tblLocked_of_committed hc _

/-- Settles O21: the checks of R145 in their order. -/
theorem tableCommit : Obligations.TableCommit := by
  refine ⟨decode_writeWord 0x02 5, fun s => ⟨fun hc => ?_, fun hu hlen => ?_, fun hu hne hle => ?_⟩⟩
  · rw [exec_cmdTblCommit_eq, if_pos hc]
  · have hbad : s.tblLen = 0 ∨ s.tblLen.toNat > tblDepth s.cfg := hlen
    rw [exec_cmdTblCommit_eq, if_neg (not_not.mpr hu), if_pos hbad]
  · have hgood : ¬(s.tblLen = 0 ∨ s.tblLen.toNat > tblDepth s.cfg) := not_or.mpr ⟨hne, Nat.not_lt.mpr hle⟩
    rw [exec_cmdTblCommit_eq, if_neg (not_not.mpr hu), if_neg hgood]

/-! ## After the commit -/

/-- The table RAM with the length and the load address of its load port. -/
def tablePart (s : State) := (s.tblMem, s.tblLen, s.tblAddr)

/-- In a state with a committed table no operation but reset writes the table or takes the commit back. -/
theorem exec_keeps_committed {i : Instr} {s t : State} (hi : i ≠ .evReset) (hc : s.synSt ≠ .uninit)
    (h : exec i s = .next t) : tablePart t = tablePart s ∧ t.synSt ≠ .uninit := by
  cases exec_effect h with
  | tblLen _ hu | tblAddr _ hu | tblData _ hu | commit hu => exact absurd hu hc
  | reset => exact absurd rfl hi
  | synStart => exact ⟨rfl, nofun⟩
  | synStop =>
    refine ⟨rfl, ?_⟩
    dsimp only
    split
    · nofun
    · exact hc
  | blockAccepted | beat => simpa [tablePart] using hc
  | _ => exact ⟨rfl, hc⟩

/-- A host transaction is no reset. -/
theorem hostOp_ne_evReset (x : Inputs) : hostOp x ≠ .evReset := fun h => kind_hostOp_ne_event x (by rw [h]; rfl)

theorem step_keeps_committed {s t : State} (hr : (nextInputs s).rst = false) (hc : s.synSt ≠ .uninit)
    (h : step s = .next t) : tablePart t = tablePart s ∧ t.synSt ≠ .uninit := by
  obtain ⟨e, he, ht⟩ := step_late hr h
  simp only [configPart, Prod.mk.injEq] at he
  obtain ⟨-, -, -, -, -, hst, hmem, hlen, haddr, -⟩ := he
  have htable : tablePart e = tablePart s := by simp only [tablePart, hmem, hlen, haddr]
  have hce : e.synSt ≠ .uninit := hst ▸ hc
  rcases execIf_next.mp ht with ⟨-, ht⟩ | ⟨-, rfl⟩
  · obtain ⟨hkept, hct⟩ := exec_keeps_committed (hostOp_ne_evReset _) hce ht
    exact ⟨hkept.trans htable, hct⟩
  · exact ⟨htable, hce⟩

/-- Settles O57: reset leaves the table RAM; without reset the host's late write, the one operation that could write the
table, finds the load port locked. -/
theorem committedTableIsLocked : Obligations.CommittedTableIsLocked := by
  intro s t hc h
  cases hr : (nextInputs s).rst with
  | true =>
    rw [step_of_reset hr] at h
    cases h
    exact ⟨rfl, nofun⟩
  | false =>
    obtain ⟨hkept, hct⟩ := step_keeps_committed hr hc h
    simp only [tablePart, Prod.mk.injEq] at hkept
    obtain ⟨hmem, hlen, haddr⟩ := hkept
    exact ⟨hmem, fun _ => ⟨hlen, haddr, hct⟩⟩

end Sys2Proof.Machine
end

section
/-! PROOFS. The table formula (41_waveform_table R147, R148), over the exact real sine. -/

namespace Sys2Proof.Machine

theorem clampVmax_le (p : Params) (x : Int) : clampVmax p x ≤ vmax p := Nat.min_le_right _ _

/-- The clamp leaves a code in range. -/
theorem clampVmax_of_mem_range {p : Params} {x : Int} (h0 : 0 ≤ x) (hv : x ≤ vmax p) : (clampVmax p x : Int) = x := by
  rw [clampVmax]
  omega

/-- Rounding keeps a range between 0 and a natural number. -/
theorem roundHalfAway_mem_range {x : Real} {v : Nat} (h0 : 0 ≤ x) (hv : x ≤ v) :
    0 ≤ roundHalfAway x ∧ roundHalfAway x ≤ v := by
  rcases h0.eq_or_lt with rfl | hpos
  · simp [roundHalfAway]
  · have hround : roundHalfAway x = ⌊x + 1 / 2⌋ := by simp [roundHalfAway, sign_pos hpos, abs_of_pos hpos]
    rw [hround]
    refine ⟨Int.floor_nonneg.mpr (by linarith), Int.lt_add_one_iff.mp (Int.floor_lt.mpr ?_)⟩
    push_cast
    linarith

/-- The unrounded wave stays within its amplitude around its offset. -/
theorem wave_mem_range {a : Real} (ha : 0 ≤ a) (o x : Real) :
    o - a ≤ o + a * Real.sin x ∧ o + a * Real.sin x ≤ o + a := by
  have hlow := mul_le_mul_of_nonneg_left (Real.neg_one_le_sin x) ha
  have hhigh := mul_le_mul_of_nonneg_left (Real.sin_le_one x) ha
  constructor <;> linarith

/-- The entry `m` quarters into a table of `4k` stands at the angle `m · π/2`. -/
theorem gen_quarter {k : Nat} (hk : k ≠ 0) (p : Params) (a o : Real) (m : Nat) :
    gen p (4 * k) a o (m * k) = clampVmax p (roundHalfAway (o + a * Real.sin (m * (Real.pi / 2)))) := by
  have hangle : 2 * Real.pi * (m * k : Nat) / (4 * k : Nat) = m * (Real.pi / 2) := by
    push_cast
    field_simp
    ring
  rw [gen, hangle]

theorem sin_three_mul_pi_div_two : Real.sin (3 * (Real.pi / 2)) = -1 := by
  rw [show 3 * (Real.pi / 2) = Real.pi / 2 + Real.pi by ring, Real.sin_add_pi, Real.sin_pi_div_two]

/-- Settles O59: the wave lies between `O − A` and `O + A`, rounding keeps a range with whole ends, and the angles of the
quarter entries are 0, π/2 and 3π/2. -/
theorem generatedTableLaws : Obligations.GeneratedTableLaws := by
  intro p n a o hn
  refine ⟨fun i => clampVmax_le _ _, fun ha hlow hhigh i => ?_, fun hdiv => ?_⟩
  · obtain ⟨hge, hle⟩ := wave_mem_range ha o (2 * Real.pi * i / n)
    obtain ⟨hround0, hroundv⟩ := roundHalfAway_mem_range (hlow.trans hge) (hle.trans hhigh)
    exact clampVmax_of_mem_range hround0 hroundv
  · obtain ⟨k, rfl⟩ := Nat.dvd_of_mod_eq_zero hdiv
    have hk : k ≠ 0 := by omega
    have hquarter : 4 * k / 4 = 1 * k := by omega
    have hthree : 3 * (4 * k) / 4 = 3 * k := by omega
    refine ⟨?_, ?_, ?_⟩
    · simpa using gen_quarter hk p a o 0
    · rw [hquarter, gen_quarter hk]
      simp
    · rw [hthree, gen_quarter hk, Nat.cast_ofNat, sin_three_mul_pi_div_two, mul_neg_one, ← sub_eq_add_neg]

end Sys2Proof.Machine
end

section
/-! PROOFS. The laws of the ring buffer in one cycle (42_ring_buffer R169, R172): its count is the length of the queue it refines,
and its cursors are those of the cycle's pop and then its push. -/

namespace Sys2Proof.Machine
open Sys2Proof Sys2Proof.Claims

/-! ## The count -/

theorem length_pop (pop : Bool) (q : List Sample) :
    (if pop then q.tail else q).length = q.length - (pop && decide (0 < q.length)).toNat := by
  cases pop with
  | false => rfl
  | true => cases q <;> rfl

/-- The length of the queue after a cycle: the push is added and the effective pop taken away, but a push alone leaves a full
queue full. -/
theorem length_queueCycle {c : Nat} (hc : 0 < c) (pop : Bool) (push : Option Sample) {q : List Sample}
    (hq : q.length ≤ c) :
    (queueCycle c pop push q).length =
      if push.isSome && !(pop && decide (0 < q.length)) && decide (q.length = c) then c
      else q.length + push.isSome.toNat - (pop && decide (0 < q.length)).toNat := by
  have hlen := length_pop pop q
  have heff : (pop && decide (0 < q.length)) = true → 0 < q.length := by simp
  unfold queueCycle
  generalize (if pop then q.tail else q) = q' at *
  generalize (pop && decide (0 < q.length)) = eff at *
  cases push with
  | none => simp [hlen]
  | some d =>
    dsimp only
    rw [List.length_append, apply_ite List.length, List.length_tail, hlen]
    cases eff with
    | false =>
      by_cases hfull : q.length = c
      · simp [hfull, Nat.sub_add_cancel hc]
      · simp [hfull]
    | true =>
      have hne := heff rfl
      have hroom : q.length - 1 ≠ c := by omega
      simp [hroom, Nat.sub_add_cancel hne]

/-- Settles O41: the count is the length of the queue that the buffer refines. -/
theorem occupiedCountLaw : Obligations.OccupiedCountLaw := by
  intro s t hs hr h push pop
  obtain ⟨hqueue, -⟩ := ringRefinesDropOldestQueue s t hs hr h
  obtain ⟨-, -, -, hle, -⟩ := hs
  have hlen := length_queueCycle (capacity_pos s.cfg) (popReq (nextInputs s))
    (if s.acqBusy then some (truncTo s.cfg.sampleW (nextInputs s).srcData) else none) (q := unread s)
    (by rwa [length_unread])
  have hpush : (if s.acqBusy then some (truncTo s.cfg.sampleW (nextInputs s).srcData) else none).isSome = s.acqBusy := by
    cases s.acqBusy <;> rfl
  rw [hpush, length_unread] at hlen
  rw [← length_unread t, hqueue]
  exact hlen

/-! ## The cursors -/

theorem popped_wp (s : State) : (popped s).wp = s.wp := by
  unfold popped
  split <;> rfl

theorem popped_rp (s : State) :
    (popped s).rp = if popReq (nextInputs s) = true ∧ 0 < cnt s then nextPtr s.cfg s.rp else s.rp := by
  unfold popped
  split <;> rfl

theorem popPushed_wp (s : State) : (popPushed s).wp = if s.acqBusy then nextPtr s.cfg s.wp else s.wp := by
  unfold popPushed
  split
  next => rw [rbPush_wp, popped_cfg, popped_wp]
  next => exact popped_wp s

/-- The read pointer moves at most once in a cycle: after an effective pop the push finds room. -/
theorem popPushed_rp {s : State} (hs : RingInv s) :
    (popPushed s).rp =
      if (popReq (nextInputs s) = true ∧ 0 < cnt s) ∨ (s.acqBusy = true ∧ cnt s = capacity s.cfg) then nextPtr s.cfg s.rp
      else s.rp := by
  have hpos := capacity_pos s.cfg
  have hfull := rbFull_popped hs
  have hrp := popped_rp s
  unfold popPushed
  cases s.acqBusy with
  | false => simp [hrp]
  | true =>
    simp only [if_true, rbPush_rp, popped_cfg, hfull, hrp]
    by_cases hpop : popReq (nextInputs s) = true ∧ 0 < cnt s
    · have hroom : ¬(cnt s = capacity s.cfg ∧ popReq (nextInputs s) = false) := by simp [hpop]
      rw [if_neg hroom, if_pos hpop, if_pos (.inl hpop)]
    · have hnone : cnt s = capacity s.cfg → popReq (nextInputs s) = false := fun hc => by
        simpa [hc, hpos] using hpop
      simp only [hpop, if_false, false_or, true_and, and_iff_left_of_imp hnone]

/-- Settles O56: the cursors after a cycle are those of its pop and then its push. -/
theorem cursorOwnership : Obligations.CursorOwnership := by
  intro s t hs hr h
  have hbuf := step_bufferPart hr h
  simp only [bufferPart, Prod.mk.injEq] at hbuf
  obtain ⟨-, -, hwp, hrp⟩ := hbuf
  exact ⟨hwp.trans (popPushed_wp s), hrp.trans (popPushed_rp hs)⟩

end Sys2Proof.Machine
end

section
/-! PROOFS. The overflow law (42_ring_buffer R170). What a list of pushes leaves (`Pushed`) composes, every cycle of a copy that
the host does not pop in is one push, and a copy goes on for as many cycles as it has samples left. -/

namespace Sys2Proof.Machine
open Sys2Proof Sys2Proof.Claims Reference

/-! ## What pushes leave -/

/-- `t` is what pushing the samples `ds`, with no pop between them, leaves of the buffer of `s`: the newest that fit, the others
counted as overflow. -/
structure Pushed (s : State) (ds : List Sample) (t : State) : Prop where
  params : t.cfg = s.cfg
  samples : unread t = (unread s ++ ds).drop (cnt s + ds.length - capacity s.cfg)
  overflows : t.ovfCnt.toNat = (s.ovfCnt.toNat + (cnt s + ds.length - capacity s.cfg)) % 2 ^ 32

theorem Pushed.count {s t : State} {ds : List Sample} (h : Pushed s ds t) :
    cnt t = min (capacity s.cfg) (cnt s + ds.length) := by
  rw [← length_unread t, h.samples, List.length_drop, List.length_append, length_unread]
  omega

theorem Pushed.refl {s : State} (hle : cnt s ≤ capacity s.cfg) : Pushed s [] s where
  params := rfl
  samples := by simp [Nat.sub_eq_zero_of_le hle]
  overflows := by simp [Nat.sub_eq_zero_of_le hle, Nat.mod_eq_of_lt s.ovfCnt.isLt]

/-- What the first pushes drop and what the others drop is what all of them drop. -/
theorem Pushed.trans {s u t : State} {ds es : List Sample} (h₁ : Pushed s ds u) (h₂ : Pushed u es t) :
    Pushed s (ds ++ es) t where
  params := h₂.params.trans h₁.params
  samples := by
    have hdrop : cnt s + ds.length - capacity s.cfg ≤ (unread s ++ ds).length := by
      rw [List.length_append, length_unread]
      exact Nat.sub_le _ _
    rw [h₂.samples, h₁.count, h₁.samples, h₁.params, ← List.drop_append_of_le_length hdrop, List.drop_drop,
      List.append_assoc, List.length_append]
    congr 1
    omega
  overflows := by
    rw [h₂.overflows, h₁.count, h₁.overflows, h₁.params, List.length_append]
    omega

/-- A push keeps the newest `c` of what the queue held and the pushed one. -/
theorem queueCycle_push {c : Nat} (hc : 0 < c) {q : List Sample} (d : Sample) (hq : q.length ≤ c) :
    queueCycle c false (some d) q = (q ++ [d]).drop (q.length + 1 - c) := by
  by_cases hfull : q.length = c
  · have hne : q ≠ [] := List.length_pos_iff.mp (hfull ▸ hc)
    simp [queueCycle, hfull, List.tail_append_of_ne_nil hne]
  · have hroom : q.length + 1 - c = 0 := by omega
    simp [queueCycle, hfull, hroom]

/-- A cycle of a copy without a pop is one push. -/
theorem step_pushed {s t : State} (hs : RingInv s) (hb : s.acqBusy = true) (hr : (nextInputs s).rst = false)
    (hp : popReq (nextInputs s) = false) (h : step s = .next t) :
    Pushed s [truncTo s.cfg.sampleW (nextInputs s).srcData] t := by
  obtain ⟨-, -, -, hle, -⟩ := id hs
  obtain ⟨hovf, -⟩ := step_push_counts hs hr h
  obtain ⟨hqueue, -⟩ := ringRefinesDropOldestQueue s t hs hr h
  refine ⟨step_cfg h, ?_, ?_⟩
  · have hlen := length_unread s
    rw [hqueue, hb, hp, if_pos rfl, queueCycle_push (capacity_pos s.cfg) _ (by omega), hlen]
    rfl
  · rw [hovf]
    by_cases hfull : cnt s = capacity s.cfg
    · simp [hb, hp, hfull, BitVec.toNat_add]
    · have hroom : cnt s + 1 - capacity s.cfg = 0 := by omega
      simp [hfull, hroom, Nat.mod_eq_of_lt s.ovfCnt.isLt]

/-! ## A copy in progress -/

/-- The copy registers, and the port values to come. -/
def copyRegs (s : State) := (s.acqBusy, s.cpLen, s.cpIdx, s.env)

theorem copyRegs_hostCommand (s : State) (x : Inputs) (t : State) : copyRegs (hostCommand s x t) = copyRegs t := by
  unfold hostCommand
  split
  case h_1 | h_3 | h_7 => rfl
  all_goals split_ifs <;> rfl

/-- No host write touches a copy in progress (40_cycle_and_bus R122). -/
theorem copyRegs_hostWrites (s : State) (x : Inputs) (t : State) : copyRegs (hostWrites s x t) = copyRegs t := by
  unfold hostWrites
  split
  next =>
    unfold hostWrite
    split
    case h_1 => exact copyRegs_hostCommand s x t
    case h_10 => rfl
    all_goals split_ifs <;> rfl
  next => rfl

/-- A beat that is not the last of its block advances the copy, and the host does not stop it (43_acquisition_adapter R183,
R191). -/
theorem copyRegs_step_of_inner_beat {s t : State} (hr : (nextInputs s).rst = false) (hb : s.acqBusy = true)
    (hl : s.cpIdx.toNat + 1 ≠ s.cpLen.toNat) (h : step s = .next t) :
    copyRegs t = (s.acqBusy, s.cpLen, s.cpIdx + 1, s.env.tail) := by
  rw [step_eq_hostWrites hr] at h
  cases h
  rw [copyRegs_hostWrites, stagesOf, sampledOf, if_pos hb, adapterWrites_of_busy _ _ hb, if_neg hl]
  rfl

/-- A copy with `m` samples left after this cycle's has them left in the next cycle. -/
theorem copy_goes_on {m : Nat} {s t : State} (hr : (nextInputs s).rst = false) (hb : s.acqBusy = true) (hm : 0 < m)
    (hl : s.cpIdx.toNat + (m + 1) ≤ s.cpLen.toNat) (h : step s = .next t) :
    t.acqBusy = true ∧ t.cpIdx.toNat + m ≤ t.cpLen.toNat := by
  have hregs := copyRegs_step_of_inner_beat hr hb (by omega) h
  simp only [copyRegs, Prod.mk.injEq] at hregs
  obtain ⟨hbusy, hlen, hidx, -⟩ := hregs
  refine ⟨hbusy.trans hb, ?_⟩
  rw [hlen, hidx]
  bv_omega

/-- A cycle takes its port values from the list and leaves the others. -/
theorem step_env {s t : State} (h : step s = .next t) : t.env = s.env.tail := by
  cases hr : (nextInputs s).rst with
  | true =>
    rw [step_of_reset hr] at h
    cases h
    rfl
  | false =>
    rw [step_eq_hostWrites hr] at h
    cases h
    have hkept := copyRegs_hostWrites s (nextInputs s) (stagesOf s (nextInputs s))
    simp only [copyRegs, Prod.mk.injEq] at hkept
    obtain ⟨-, -, -, henv⟩ := hkept
    rw [henv, stagesOf, sampledOf]
    split <;> rfl

/-! ## Runs -/

/-- A run begins with a step. -/
theorem run_succ_of_step {M : Host.Core} {s u : M.State} (m : Nat) (h : M.step s = .next u) :
    M.run (m + 1) s = M.run m u := by
  rw [Host.Core.run, h]

/-- `m` cycles of a copy without a pop are `m` pushes. After the last beat of the block no copy is left, so the copy is a
premise only where a cycle is still to come. -/
theorem run_pushed (m : Nat) {s : State} (hs : RingInv s)
    (hcopy : 0 < m → s.acqBusy = true ∧ s.cpIdx.toNat + m ≤ s.cpLen.toNat) (hq : quietFor m s)
    (hp : ∀ x ∈ s.env.take m, popReq x = false) :
    ∃ t, Sys2Proof.core.run m s = .next t ∧
      Pushed s ((s.env.take m).map fun x => truncTo s.cfg.sampleW x.srcData) t := by
  induction m generalizing s with
  | zero =>
    obtain ⟨-, -, -, hle, -⟩ := hs
    exact ⟨s, rfl, .refl hle⟩
  | succ m ih =>
    obtain ⟨hb, hlen⟩ := hcopy m.succ_pos
    obtain ⟨henough, hquiet⟩ := hq
    obtain ⟨x, xs, henv⟩ := List.exists_cons_of_length_pos (l := s.env) (by omega)
    have hx : nextInputs s = x := by simp only [nextInputs, henv]
    rw [henv] at henough hquiet hp ⊢
    rw [List.take_succ_cons] at hquiet hp ⊢
    obtain ⟨hrst, hquiet⟩ := List.forall_mem_cons.mp hquiet
    obtain ⟨hpop, hp⟩ := List.forall_mem_cons.mp hp
    have hr : (nextInputs s).rst = false := hx ▸ hrst
    obtain ⟨u, hstep⟩ : ∃ u, step s = .next u := ⟨_, step_eq_hostWrites hr⟩
    have huenv : u.env = xs := by rw [step_env hstep, henv, List.tail_cons]
    have hfirst := step_pushed hs hb hr (hx ▸ hpop) hstep
    obtain ⟨t, hrun, hrest⟩ := ih (stepKeepsRingInv s u hs hstep) (fun hm => copy_goes_on hr hb hm hlen hstep)
      ⟨by simpa [huenv] using henough, huenv ▸ hquiet⟩ (huenv ▸ hp)
    refine ⟨t, (run_succ_of_step m hstep).trans hrun, ?_⟩
    have hall := hfirst.trans hrest
    rwa [huenv, hfirst.params, hx] at hall

/-- Settles O42, by induction on the number of pushes: what one push leaves and what the others leave compose. -/
theorem overflowLaw : Obligations.OverflowLaw := by
  intro m s hs hb hlen hq hp
  obtain ⟨t, hrun, hpushed⟩ := run_pushed m hs (fun _ => ⟨hb, hlen⟩) hq hp
  obtain ⟨henough, -⟩ := hq
  have hlength : ((s.env.take m).map fun x => truncTo s.cfg.sampleW x.srcData).length = m := by simpa using henough
  have hcount := hpushed.count
  obtain ⟨-, hsamples, hoverflows⟩ := hpushed
  rw [hlength] at hcount hsamples hoverflows
  exact ⟨t, hrun, hcount, hoverflows, hsamples⟩

end Sys2Proof.Machine
end

section
/-! PROOFS. The host's reads of the ring buffer (42_ring_buffer R163 to R168). -/

namespace Sys2Proof.Machine
open Sys2Proof Sys2Proof.Claims

/-! ## The count, the pointers, the overflow count -/

/-- The count as the integer remainder of 10_state R27. -/
theorem cnt_eq_emod (s : State) : (cnt s : Int) = ((s.wp.toNat : Int) - s.rp.toNat) % (2 * 2 ^ s.cfg.capLog2 : Int) := by
  have hmod : (2 * 2 ^ s.cfg.capLog2 : Int) = (2 * capacity s.cfg : Nat) := by simp [capacity]
  have hpos : 0 < 2 * capacity s.cfg := Nat.mul_pos two_pos (capacity_pos s.cfg)
  rw [hmod, cnt]
  generalize 2 * capacity s.cfg = n at *
  have hle : s.rp.toNat % n ≤ n := (Nat.mod_lt _ hpos).le
  rw [Int.natCast_mod, Nat.cast_add, Nat.cast_sub hle, Int.natCast_mod, ← add_sub_assoc, add_sub_right_comm,
    Int.add_emod_right, Int.sub_emod_emod]

/-- The count of a buffer with legal parameters fits the read word. -/
theorem readsAs_rdRbCount {s : State} (h : s.cfg.legal) : ReadsAs .rdRbCount s (cnt s) := by
  have hlt : cnt s < 2 * capacity s.cfg := Nat.mod_lt _ (Nat.mul_pos two_pos (capacity_pos s.cfg))
  have hcap : capacity s.cfg ≤ 2 ^ 15 := Nat.pow_le_pow_right two_pos h.1
  have hword : (BitVec.ofNat 32 (cnt s)).toNat = cnt s := by
    rw [BitVec.toNat_ofNat, Nat.mod_eq_of_lt (by omega)]
  have hread : ReadsAs .rdRbCount s (BitVec.ofNat 32 (cnt s)).toNat := readsAs_of_word rfl
  rwa [hword] at hread

/-- Settles O11: the count is R27's remainder and fits its word, and the pointers are packed side by side. -/
theorem ringObservationReads : Obligations.RingObservationReads := by
  refine ⟨⟨readAt_of_decodeRead rfl, readAt_of_decodeRead rfl, readAt_of_decodeRead rfl⟩,
    fun s => ⟨fun hcfg => ?_, ?_, readsAs_of_word rfl⟩⟩
  · rw [← cnt_eq_emod, Int.toNat_natCast]
    exact readsAs_rdRbCount hcfg
  · have hword : (ptrsWord s).toNat = 2 ^ 16 * s.rp.toNat + s.wp.toNat := toNat_append_eq_add s.rp s.wp
    rw [← hword]
    exact readsAs_of_word rfl

/-! ## The pop -/

theorem validWord_toNat (d : Sample) : (validWord d).toNat = 2 ^ 31 + d.toNat := by
  have hd := d.isLt
  rw [validWord_eq_ofNat, BitVec.toNat_ofNat, Nat.mod_eq_of_lt (by omega)]

/-- Settles O12: with unread samples the read is the front's word and one pointer advance, without it is the word 0. -/
theorem popReturnsTheOldestSample : Obligations.PopReturnsTheOldestSample := by
  refine ⟨readAt_of_decodeRead rfl, fun s => ⟨fun hne => ⟨validWord (rbFront s), validWord_toNat _, ?_⟩,
    fun hzero => ⟨0, rfl, ?_⟩⟩⟩
  · rw [exec_rdRbData_eq, rbEmpty_eq_false.mpr hne]
    rfl
  · have hempty : rbEmpty s = true := by simp [rbEmpty, hzero]
    rw [exec_rdRbData_eq, hempty]
    rfl

end Sys2Proof.Machine
end

section
/-! PROOFS. The write pointer counts the pushes (43_acquisition_adapter R194): of all operations a beat and reset alone move it,
and they move the sample count with it. -/

namespace Sys2Proof.Machine
open Sys2Proof

/-- The 32-bit sample count wraps at a multiple of the pointers' modulus. -/
theorem two_mul_capacity_dvd {p : Params} (h : p.legal) : 2 * capacity p ∣ 2 ^ 32 := by
  obtain ⟨hcap, -⟩ := h
  rw [capacity, ← Nat.pow_succ']
  exact Nat.pow_dvd_pow 2 (by omega)

/-- So one sample more is one more modulo `2C`, also where the count wraps. -/
theorem toNat_succ_mod {p : Params} (h : p.legal) (n : Word) :
    (n + 1).toNat % (2 * capacity p) = (n.toNat + 1) % (2 * capacity p) := by
  rw [BitVec.toNat_add, Nat.mod_mod_of_dvd _ (two_mul_capacity_dvd h)]
  rfl

/-- One push moves the pointer and the count on together. -/
theorem push_keeps_pushCountInv {s t : State} (hs : PushCountInv s) (hcfg : t.cfg = s.cfg)
    (hwp : t.wp = nextPtr s.cfg s.wp) (hcount : t.acqSamples = s.acqSamples + 1) : PushCountInv t := by
  obtain ⟨hlegal, hcounts⟩ := hs
  refine ⟨hcfg ▸ hlegal, ?_⟩
  rw [hcfg, hwp, hcount, nextPtr_toNat _ hlegal, hcounts, toNat_succ_mod hlegal, Nat.mod_add_mod]

theorem exec_keeps_pushCountInv (i : Instr) (s t : State) (hs : PushCountInv s) (h : exec i s = .next t) :
    PushCountInv t := by
  cases exec_effect h with
  | reset =>
    obtain ⟨hlegal, -⟩ := hs
    exact ⟨hlegal, (Nat.zero_mod _).symm⟩
  | blockAccepted p l => simpa [PushCountInv] using hs
  | beat d => exact push_keeps_pushCountInv hs (by simp) (by simp) (by simp)
  | _ => exact hs

/-- Settles O38: a push advances the pointer and the count by one, and the modulus of the one
divides that of the other. -/
theorem stepKeepsPushCountInv : Obligations.StepKeepsPushCountInv :=
  fun _ _ hs h => step_preserves (fun _ h => h) (fun _ h => h) exec_keeps_pushCountInv hs h

end Sys2Proof.Machine
end

section
/-! PROOFS. The acknowledge and the end of a copy (43_acquisition_adapter R183, R187, R199). In a cycle without reset the
adapter's registers are what `acq_step` writes, whatever the host does; so a copy goes on beat by beat to its last. -/

namespace Sys2Proof.Machine
open Sys2Proof Sys2Proof.Claims

/-! ## The adapter in a cycle -/

/-- The registers that `acq_step` alone writes (43_acquisition_adapter R180). -/
def adapterRegs (s : State) := (s.acqBusy, s.cpBase, s.cpLen, s.cpIdx, s.ackQ, s.acqBlks, s.acqSamples)

/-- No host transaction writes them (40_cycle_and_bus R122). -/
theorem exec_host_adapterRegs {i : Instr} {s t : State} (hk : kind i ≠ .event) (h : exec i s = .next t) :
    adapterRegs t = adapterRegs s := by
  cases exec_effect h with
  | reset | blockIgnored | blockReentry | blockAccepted | noBeat | beat | noFiring | firingReentry | firingAccepted
  | noDacAccept | dacAccept => exact absurd rfl hk
  | _ => rfl

theorem adapterRegs_stagesOf (s : State) (x : Inputs) : adapterRegs (stagesOf s x) = adapterRegs (adapterWrites s x s) := by
  rw [stagesOf, sampledOf]
  split <;> rfl

/-- A cycle without reset leaves in the adapter what `acq_step` writes. -/
theorem adapterRegs_step {s t : State} (hr : (nextInputs s).rst = false) (h : step s = .next t) :
    adapterRegs t = adapterRegs (adapterWrites s (nextInputs s) s) := by
  rw [step_eq_hostWrites hr] at h
  cases h
  have hlate := late_stage (configPart_stagesOf s (nextInputs s)) (sampledOf_inp s (nextInputs s))
  exact (execIf_keeps (fun _ => exec_host_adapterRegs (kind_hostOp_ne_event _)) hlate).trans (adapterRegs_stagesOf s _)

/-! ## The acknowledge -/

/-- An acknowledge is due after the last beat of a copy and after an empty block, and after no other cycle. -/
theorem step_ackQ {s t : State} (hr : (nextInputs s).rst = false) (h : step s = .next t) :
    t.ackQ = (lastBeat s || emptyBlock s (nextInputs s)) := by
  have hregs := adapterRegs_step hr h
  simp only [adapterRegs, Prod.mk.injEq] at hregs
  obtain ⟨-, -, -, -, hack, -⟩ := hregs
  exact hack

/-- Settles O47: the second cycle drives the acknowledge that the first queued. -/
theorem acknowledgeFollowsTheCopy : Obligations.AcknowledgeFollowsTheCopy := by
  intro s t u hr hst htu
  obtain ⟨v, hout⟩ := step_out_registered htu
  have hack : u.out.dmaAck = t.ackQ := by rw [hout]; rfl
  rw [hack, step_ackQ hr hst]
  simp [lastBeat, emptyBlock]

/-! ## One beat -/

/-- A beat that is not the last moves the copy on by one sample; no acknowledge is due. -/
theorem adapterRegs_step_of_inner_beat {s t : State} (hr : (nextInputs s).rst = false) (hb : s.acqBusy = true)
    (hl : s.cpIdx.toNat + 1 ≠ s.cpLen.toNat) (h : step s = .next t) :
    adapterRegs t = (true, s.cpBase, s.cpLen, s.cpIdx + 1, false, s.acqBlks, s.acqSamples + 1) := by
  rw [adapterRegs_step hr h, adapterWrites_of_busy _ _ hb, if_neg hl, ← hb]
  rfl

/-- The last beat ends the copy, counts the block and queues the acknowledge. -/
theorem adapterRegs_step_of_last_beat {s t : State} (hr : (nextInputs s).rst = false) (hb : s.acqBusy = true)
    (hl : s.cpIdx.toNat + 1 = s.cpLen.toNat) (h : step s = .next t) :
    adapterRegs t = (false, s.cpBase, s.cpLen, 0, true, s.acqBlks + 1, s.acqSamples + 1) := by
  rw [adapterRegs_step hr h, adapterWrites_of_busy _ _ hb, if_pos hl]
  rfl

/-! ## A whole copy -/

/-- `t` is what `k` beats leave of the copy in progress in `s`, none of them its last. -/
structure MidCopy (s : State) (k : Nat) (t : State) : Prop where
  params : t.cfg = s.cfg
  ports : t.env = s.env.drop k
  busy : t.acqBusy = true
  base : t.cpBase = s.cpBase
  length : t.cpLen = s.cpLen
  index : t.cpIdx.toNat = s.cpIdx.toNat + k
  acknowledge : t.ackQ = (s.ackQ && k == 0)
  blocks : t.acqBlks = s.acqBlks
  samples : t.acqSamples = s.acqSamples + BitVec.ofNat 32 k

theorem MidCopy.refl {s : State} (hb : s.acqBusy = true) : MidCopy s 0 s where
  params := rfl
  ports := rfl
  busy := hb
  base := rfl
  length := rfl
  index := rfl
  acknowledge := by simp
  blocks := rfl
  samples := by simp

/-- One sample more on a count of samples. -/
theorem add_ofNat_succ (w : Word) (k : Nat) : w + BitVec.ofNat 32 k + 1 = w + BitVec.ofNat 32 (k + 1) := by
  rw [BitVec.ofNat_add, BitVec.add_assoc]
  rfl

/-- An inner beat goes on with the copy. -/
theorem MidCopy.inner_beat {s t u : State} {k : Nat} (hc : MidCopy s k t) (hk : s.cpIdx.toNat + (k + 1) < s.cpLen.toNat)
    (hr : (nextInputs t).rst = false) (h : step t = .next u) : MidCopy s (k + 1) u := by
  obtain ⟨hcfg, henv, hb, hbase, hlen, hidx, -, hblks, hsamples⟩ := hc
  have hinner : t.cpIdx.toNat + 1 ≠ t.cpLen.toNat := by rw [hidx, hlen]; omega
  have hregs := adapterRegs_step_of_inner_beat hr hb hinner h
  simp only [adapterRegs, Prod.mk.injEq] at hregs
  obtain ⟨hb', hbase', hlen', hidx', hack', hblks', hsamples'⟩ := hregs
  exact {
    params := (step_cfg h).trans hcfg
    ports := by rw [step_env h, henv, List.tail_drop]
    busy := hb'
    base := hbase'.trans hbase
    length := hlen'.trans hlen
    index := by
      have hmax := s.cpLen.isLt
      rw [hidx', BitVec.toNat_add_of_lt (show t.cpIdx.toNat + 1 < 2 ^ 16 by omega), hidx]
      rfl
    acknowledge := by simp [hack']
    blocks := hblks'.trans hblks
    samples := by rw [hsamples', hsamples, add_ofNat_succ] }

/-- The environment's promise of no reset, in the cycle after `k` others. -/
theorem no_reset_of_quietFor {s t : State} {k n : Nat} (hq : quietFor n s) (hk : k < n) (henv : t.env = s.env.drop k) :
    (nextInputs t).rst = false := by
  obtain ⟨henough, hquiet⟩ := hq
  have hlt : k < s.env.length := hk.trans_le henough
  have hnext : nextInputs t = s.env[k] := by simp only [nextInputs, henv, List.drop_eq_getElem_cons hlt]
  rw [hnext]
  exact hquiet _ (List.mem_take_iff_getElem.mpr ⟨k, by omega, rfl⟩)

/-- A run ends with a step. -/
theorem run_succ_of_run {M : Host.Core} {k : Nat} {s t u : M.State} (hrun : M.run k s = .next t)
    (hstep : M.step t = .next u) : M.run (k + 1) s = .next u := by
  induction k generalizing s with
  | zero =>
    cases hrun
    rw [run_succ_of_step 0 hstep]
    rfl
  | succ k ih =>
    rw [Host.Core.run] at hrun
    split at hrun
    next v hv => rw [run_succ_of_step (k + 1) hv, ih hrun]
    all_goals cases hrun

/-- A copy runs on to any of its beats. -/
theorem run_midCopy {s : State} {n : Nat} (hb : s.acqBusy = true) (hq : quietFor n s) (k : Nat) (hkn : k ≤ n)
    (hk : s.cpIdx.toNat + k < s.cpLen.toNat) : ∃ t, Sys2Proof.core.run k s = .next t ∧ MidCopy s k t := by
  induction k with
  | zero => exact ⟨s, rfl, .refl hb⟩
  | succ k ih =>
    obtain ⟨t, hrun, hmid⟩ := ih (by omega) (by omega)
    have hr := no_reset_of_quietFor hq hkn hmid.ports
    have hstep := step_eq_hostWrites hr
    exact ⟨_, run_succ_of_run hrun hstep, hmid.inner_beat hk hr hstep⟩

/-- In the middle of a copy the block reads the source at the address of the next sample. -/
theorem MidCopy.outputs {s t u : State} {k : Nat} (hc : MidCopy s k t) (h : step t = .next u) :
    u.out.srcRd = true ∧ u.out.dmaAck = (s.ackQ && k == 0) ∧
      u.out.srcAddr.toNat = (s.cpBase.toNat + s.cpIdx.toNat + k) % 2 ^ s.cfg.addrW % 2 ^ 32 := by
  obtain ⟨v, hout⟩ := step_out_registered h
  rw [hout]
  refine ⟨hc.busy, hc.acknowledge, ?_⟩
  rw [Nat.add_assoc, ← hc.index, ← hc.base, ← hc.params]
  exact BitVec.toNat_ofNat _ _

/-- Settles O43: every cycle of the copy is in its middle, up to the last beat, which ends it. -/
theorem copyCompletes : Obligations.CopyCompletes := by
  intro n s hs hb hn hq
  obtain ⟨-, hlt⟩ := hs.1 hb
  have hmid : ∀ k < n, ∃ t u, Sys2Proof.core.run (k + 1) s = .next u ∧ MidCopy s k t ∧ (nextInputs t).rst = false ∧
      step t = .next u := fun k hk => by
    obtain ⟨t, hrun, hmid⟩ := run_midCopy hb hq k hk.le (by omega)
    have hr := no_reset_of_quietFor hq hk hmid.ports
    exact ⟨t, _, run_succ_of_run hrun (step_eq_hostWrites hr), hmid, hr, step_eq_hostWrites hr⟩
  constructor
  · intro k hk
    obtain ⟨t, u, hrun, hmid, -, hstep⟩ := hmid k hk
    exact ⟨u, hrun, hmid.outputs hstep⟩
  · obtain ⟨m, rfl⟩ : ∃ m, n = m + 1 := ⟨n - 1, by omega⟩
    obtain ⟨t, u, hrun, hmid, hr, hstep⟩ := hmid m m.lt_succ_self
    have hlast : t.cpIdx.toNat + 1 = t.cpLen.toNat := by rw [hmid.index, hmid.length]; omega
    have hregs := adapterRegs_step_of_last_beat hr hmid.busy hlast hstep
    simp only [adapterRegs, Prod.mk.injEq] at hregs
    obtain ⟨hidle, -, -, -, hack, hblks, hsamples⟩ := hregs
    exact ⟨u, hrun, hidle, hack, by rw [hblks, hmid.blocks], by rw [hsamples, hmid.samples, add_ofNat_succ]⟩

end Sys2Proof.Machine
end

section
/-! PROOFS. The adapter's operations one by one (43_acquisition_adapter R181 to R198). -/

namespace Sys2Proof.Machine
open Sys2Proof Sys2Proof.Claims

/-! ## Reads -/

/-- Settles O13: each word is a register, zero-extended, or two packed side by side. -/
theorem adapterReads : Obligations.AdapterReads := by
  refine ⟨⟨readAt_of_decodeRead rfl, readAt_of_decodeRead rfl, readAt_of_decodeRead rfl, readAt_of_decodeRead rfl,
    readAt_of_decodeRead rfl, readAt_of_decodeRead rfl⟩, fun s => ⟨readsAs_of_word rfl, readsAs_of_word rfl, ?_,
      readsAs_of_zeroExtend (by decide) rfl, readsAs_of_word rfl, readsAs_of_zeroExtend (by decide) rfl⟩⟩
  have hword : (curWord s).toNat = 2 ^ 16 * s.cpLen.toNat + s.cpIdx.toNat := toNat_append_eq_add s.cpLen s.cpIdx
  rw [← hword]
  exact readsAs_of_word rfl

/-! ## Configuration writes and commands -/

/-- While stopped a configuration write is performed. -/
theorem writeUnless_acqRun_of_stopped {s : State} (h : s.acqRun = false) (t : State) :
    writeUnless s.acqRun s t = .next { t with lastRes := .ok } := by
  rw [writeUnless, if_neg (Bool.eq_false_iff.mp h)]
  rfl

/-- While running a configuration write is refused. -/
theorem writeUnless_acqRun_of_running {s : State} (h : s.acqRun = true) (t : State) :
    writeUnless s.acqRun s t = .next { s with lastRes := .stateErr } := by
  rw [writeUnless, if_pos h]
  rfl

/-- Settles O22: the three writes have one lock, `acq_run`. -/
theorem acquisitionConfigurationWrites : Obligations.AcquisitionConfigurationWrites := by
  refine ⟨⟨writeAt_of_decodeWrite fun _ => rfl, writeAt_of_decodeWrite fun _ => rfl, writeAt_of_decodeWrite fun _ => rfl⟩,
    fun s c r b => ⟨fun hstopped => ⟨?_, ?_, ?_⟩, fun hrunning => ⟨?_, ?_, ?_⟩⟩⟩
  · exact writeUnless_acqRun_of_stopped hstopped _
  · exact writeUnless_acqRun_of_stopped hstopped _
  · exact writeUnless_acqRun_of_stopped hstopped _
  · exact writeUnless_acqRun_of_running hrunning _
  · exact writeUnless_acqRun_of_running hrunning _
  · exact writeUnless_acqRun_of_running hrunning _

/-- Settles O23: the checks of R190 in their order. -/
theorem acquisitionStart : Obligations.AcquisitionStart := by
  refine ⟨decode_writeWord 0x02 1, fun s => ⟨fun hrun => ?_, fun hrun hbad => ?_, fun hrun hrate hblk hle hok => ?_⟩⟩
  · rw [exec_cmdAcqStart_eq, if_pos hrun]
  · have hsplit : (s.acqRate = 0 ∨ s.acqBlk = 0 ∨ s.acqBlk.toNat > capacity s.cfg) ∨ s.inp.acqCfgOk = false := by
      rwa [or_assoc, or_assoc]
    rw [exec_cmdAcqStart_eq, if_neg (Bool.eq_false_iff.mp hrun)]
    rcases hsplit with hcfg | hok
    · rw [if_pos hcfg]
    · rw [if_pos hok, ite_self]
  · have hgood : ¬(s.acqRate = 0 ∨ s.acqBlk = 0 ∨ s.acqBlk.toNat > capacity s.cfg) :=
      not_or.mpr ⟨hrate, not_or.mpr ⟨hblk, Nat.not_lt.mpr hle⟩⟩
    rw [exec_cmdAcqStart_eq, if_neg (Bool.eq_false_iff.mp hrun), if_neg hgood, if_neg (by simp [hok])]

/-- Settles O24: the word is that of command 2, and the command's arm has no check. -/
theorem acquisitionStop : Obligations.AcquisitionStop := ⟨decode_writeWord 0x02 2, fun _ => rfl⟩

/-! ## The completion -/

/-- The desync check writes FAULT alone (R182). -/
theorem checkDesync_eq (l : Len) (s : State) :
    checkDesync l s = { s with fault := if l = s.acqBlk then s.fault else s.fault ||| acqDesync } := by
  by_cases hl : l = s.acqBlk
  · rw [checkDesync, if_neg (not_not.mpr hl), if_pos hl]
  · rw [checkDesync, if_pos hl, if_neg hl]
    rfl

/-- A completion of a running session without a copy is accepted, its length checked (R181, R182). -/
theorem exec_evDmaDone_of_accepted {p : SrcAddr} {l : Len} {s : State} (hrun : s.acqRun = true)
    (hidle : s.acqBusy = false) :
    exec (.evDmaDone p l) s =
      .next (acceptBlock p l { s with fault := if l = s.acqBlk then s.fault else s.fault ||| acqDesync }) := by
  rw [exec_evDmaDone_eq, if_neg (by simp [hrun]), if_neg (by simp [hidle]), checkDesync_eq]

/-- Settles O29: the session and the copy decide whether the block is accepted, its length what accepting it does. -/
theorem dmaCompletion : Obligations.DmaCompletion := by
  intro s p l
  refine ⟨fun hstopped => ?_, fun hrun hbusy => ?_, fun hrun hidle hl => ?_, fun hrun hidle hl => ?_⟩
  · rw [exec_evDmaDone_eq, if_pos hstopped]
  · rw [exec_evDmaDone_eq, if_neg (by simp [hrun]), if_pos hbusy]
    rfl
  · rw [exec_evDmaDone_of_accepted hrun hidle, acceptBlock, if_neg hl]
    rfl
  · rw [exec_evDmaDone_of_accepted hrun hidle, acceptBlock, if_pos hl]
    rfl

/-! ## The beat -/

/-- The copy counter after a beat, its four registers written out (R183). -/
theorem advanceCopy_eq {s : State} (hb : s.acqBusy = true) :
    advanceCopy s = { s with
      acqBusy := !decide (s.cpIdx.toNat + 1 = s.cpLen.toNat)
      cpIdx := if s.cpIdx.toNat + 1 = s.cpLen.toNat then 0 else s.cpIdx + 1
      ackQ := if s.cpIdx.toNat + 1 = s.cpLen.toNat then true else s.ackQ
      acqBlks := if s.cpIdx.toNat + 1 = s.cpLen.toNat then s.acqBlks + 1 else s.acqBlks } := by
  by_cases hl : s.cpIdx.toNat + 1 = s.cpLen.toNat
  · simp [advanceCopy_of_last hl, hl]
  · simp [advanceCopy_of_not_last hl, hl, hb]

/-- The push of a beat, its four fields written out (42_ring_buffer R161, R162). -/
theorem rbPush_eq (s : State) (d : Sample) :
    rbPush s d = { s with
      rbMem := s.rbMem.store (slotOf s.cfg s.wp) (truncTo s.cfg.sampleW d)
      wp := nextPtr s.cfg s.wp
      rp := if cnt s = capacity s.cfg then nextPtr s.cfg s.rp else s.rp
      ovfCnt := if cnt s = capacity s.cfg then s.ovfCnt + 1 else s.ovfCnt } := by
  simp only [rbPush, rbFull_eq_true]

/-- Settles O30: a beat is a push into the slot of `wp`, one sample counted, and the copy moved on. -/
theorem copyBeatPushesOneSample : Obligations.CopyBeatPushesOneSample := by
  intro s d
  refine ⟨fun hb => ⟨s.rbMem.store (slotOf s.cfg s.wp) (truncTo s.cfg.sampleW d),
    fun a => Memory.cellAt_store _ _ a _, ?_⟩, fun hidle => ?_⟩
  · rw [exec_evCopyBeat_of_busy hb, advanceCopy_eq (by exact hb), rbPush_eq]
    rfl
  · have harm : exec (.evCopyBeat d) s = execEvCopyBeat d s := rfl
    rw [harm, execEvCopyBeat, if_neg (Bool.eq_false_iff.mp hidle)]

end Sys2Proof.Machine
end

section
/-! PROOFS. The sequencer in a cycle (44_synthesis_sequencer R210 to R217). In a cycle without reset its registers are what
`syn_step` writes, but for the index and the period counter that a successful start loads; in a session that is not stopped
the host writes nothing of the sequencer's part. -/

namespace Sys2Proof.Machine
open Sys2Proof Sys2Proof.Claims

/-! ## The sequencer's registers -/

/-- The registers that `syn_step` alone writes. -/
def firingRegs (s : State) := (s.synFires, s.dacValid, s.dacData)

/-- The registers that `syn_step` writes and a start loads (R220). -/
def cursorRegs (s : State) := (s.pcnt, s.idx)

/-- The host starts a session in this cycle: the start is commanded and not refused (R220). -/
abbrev StartsSession (s : State) (x : Inputs) : Prop :=
  commands x 3 ∧ (s.synSt = .ready ∨ s.synSt = .stopped) ∧ s.synPeriod ≠ 0

/-- No session starts over a running one. -/
theorem not_startsSession_of_running {s : State} (hrun : s.synSt = .running) (x : Inputs) : ¬StartsSession s x := by
  rintro ⟨-, hst, -⟩
  simp [hrun] at hst

/-- No host transaction writes what the DAC sees or counts a firing (40_cycle_and_bus R122, 10_state R37). -/
theorem exec_host_firingRegs {i : Instr} {s t : State} (hk : kind i ≠ .event) (h : exec i s = .next t) :
    firingRegs t = firingRegs s := by
  cases exec_effect h with
  | reset | blockIgnored | blockReentry | blockAccepted | noBeat | beat | noFiring | firingReentry | firingAccepted
  | noDacAccept | dacAccept => exact absurd rfl hk
  | _ => rfl

/-- Of the host's transactions only an accepted start loads the index and the period counter (R220). -/
theorem exec_host_cursorRegs {i : Instr} {s t : State} (hk : kind i ≠ .event) (h : exec i s = .next t) :
    cursorRegs t = if i = .cmdSynStart ∧ accepts s i = true then (s.synPeriod - 1, 0) else cursorRegs s := by
  cases exec_effect h with
  | read _ hr =>
    rw [if_neg]
    · rfl
    · rintro ⟨rfl, -⟩
      cases hr
  | refused _ ha =>
    rw [if_neg]
    · rfl
    · rintro ⟨-, hacc⟩
      simp [ha] at hacc
  | synStart hr hu hp =>
    have hacc : accepts s .cmdSynStart = true := by simpa [accepts_cmdSynStart, hr, hu] using hp
    rw [if_pos ⟨rfl, hacc⟩]
    rfl
  | reset | blockIgnored | blockReentry | blockAccepted | noBeat | beat | noFiring | firingReentry | firingAccepted
  | noDacAccept | dacAccept => exact absurd rfl hk
  | _ => rfl

/-- In a running session no host transaction but the stop writes the sequencer's part (R218, R219, R220, and the lock of the
load port, 41_waveform_table R142). -/
theorem exec_host_synPart_of_running {i : Instr} {s t : State} (hk : kind i ≠ .event) (hstop : i ≠ .cmdSynStop)
    (hrun : s.synSt = .running) (h : exec i s = .next t) : synPart t = synPart s := by
  have hcommitted : s.synSt ≠ .uninit := by simp [hrun]
  cases exec_effect h with
  | synChan _ hs | synPeriod _ hs | synStart hs => exact absurd hrun hs
  | tblLen _ hu | tblAddr _ hu | tblData _ hu | commit hu => exact absurd hu hcommitted
  | synStop => exact absurd rfl hstop
  | reset | blockIgnored | blockReentry | blockAccepted | noBeat | beat | noFiring | firingReentry | firingAccepted
  | noDacAccept | dacAccept => exact absurd rfl hk
  | _ => rfl

/-- The events of a cycle leave in the sequencer what `syn_step` writes over the pre-state. -/
theorem synPart_stagesOf_eq (s : State) (x : Inputs) : synPart (stagesOf s x) = synPart (sequencerWrites s x s) := by
  have htick : synPart (tick s) = synPart { s with pcnt := (tick s).pcnt } := rfl
  rw [synPart_stagesOf, synPart_sequencerWrites s x htick, sequencerWrites_tick]

/-- A cycle without reset is its events, and then the host's late write if there is one. -/
theorem step_late_of_stagesOf {s t : State} (hr : (nextInputs s).rst = false) (h : step s = .next t) :
    execIf ((nextInputs s).hSel && !runsBeforeEvents (hostOp (nextInputs s))) (hostOp (nextInputs s))
      (stagesOf s (nextInputs s)) = .next t := by
  rw [step_eq_hostWrites hr] at h
  cases h
  exact late_stage (configPart_stagesOf s _) (sampledOf_inp s _)

/-- A cycle without reset leaves in the firing's registers what `syn_step` writes. -/
theorem firingRegs_step {s t : State} (hr : (nextInputs s).rst = false) (h : step s = .next t) :
    firingRegs t = firingRegs (sequencerWrites s (nextInputs s) s) := by
  have hlate := execIf_keeps (fun _ => exec_host_firingRegs (kind_hostOp_ne_event _)) (step_late_of_stagesOf hr h)
  have hsyn := synPart_stagesOf_eq s (nextInputs s)
  simp only [synPart, Prod.mk.injEq] at hsyn
  obtain ⟨-, -, -, -, -, -, -, -, -, hfires, hvalid, hdata⟩ := hsyn
  rw [hlate]
  simp only [firingRegs, hfires, hvalid, hdata]

/-- A cycle without reset leaves in the index and the period counter what `syn_step` writes, or what a start loads. -/
theorem cursorRegs_step {s t : State} (hr : (nextInputs s).rst = false) (h : step s = .next t) :
    cursorRegs t =
      if StartsSession s (nextInputs s) then (s.synPeriod - 1, 0)
      else cursorRegs (sequencerWrites s (nextInputs s) s) := by
  have hlate := step_late_of_stagesOf hr h
  have hsyn := synPart_stagesOf_eq s (nextInputs s)
  simp only [synPart, Prod.mk.injEq] at hsyn
  obtain ⟨-, hst, -, -, -, -, hper, hpcnt, hidx, -⟩ := hsyn
  have hcursor : cursorRegs (stagesOf s (nextInputs s)) = cursorRegs (sequencerWrites s (nextInputs s) s) := by
    simp only [cursorRegs, hpcnt, hidx]
  have hcommand := commands_iff (x := nextInputs s) (w := 3) (i := .cmdSynStart) (by decide)
  have hperiod : (stagesOf s (nextInputs s)).synPeriod = s.synPeriod := hper
  have hstate : (stagesOf s (nextInputs s)).synSt = s.synSt := hst
  rcases execIf_next.mp hlate with ⟨hl, hexec⟩ | ⟨hl, rfl⟩
  · obtain ⟨hsel, -⟩ := Bool.and_eq_true_iff.mp hl
    rw [exec_host_cursorRegs (kind_hostOp_ne_event _) hexec, hcursor, hperiod]
    refine if_congr ?_ rfl rfl
    rw [StartsSession, hcommand, and_iff_right hsel]
    refine and_congr_right fun hop => ?_
    rw [hop, accepts_cmdSynStart_iff, hstate, hperiod]
  · rw [hcursor, if_neg]
    rintro ⟨hc, -⟩
    obtain ⟨hsel, hop⟩ := hcommand.mp hc
    simp [hsel, hop, runsBeforeEvents] at hl

/-- A cycle of a running session that is neither reset nor stopped leaves in the sequencer's part what `syn_step` writes. -/
theorem synPart_step_of_running {s t : State} (hr : (nextInputs s).rst = false) (hstop : commands (nextInputs s) 4 = false)
    (hrun : s.synSt = .running) (h : step s = .next t) : synPart t = synPart (sequencerWrites s (nextInputs s) s) := by
  have hsyn := synPart_stagesOf_eq s (nextInputs s)
  have hrunning : (stagesOf s (nextInputs s)).synSt = .running := (congrArg (·.2.1) hsyn).trans hrun
  have hcommand := commands_iff (x := nextInputs s) (w := 4) (i := .cmdSynStop) (by decide)
  refine (execIf_keeps (fun hl he => ?_) (step_late_of_stagesOf hr h)).trans hsyn
  obtain ⟨hsel, -⟩ := Bool.and_eq_true_iff.mp hl
  refine exec_host_synPart_of_running (kind_hostOp_ne_event _) (fun hop => ?_) hrunning he
  exact absurd (hcommand.mpr ⟨hsel, hop⟩) (Bool.eq_false_iff.mp hstop)

/-! ## What one cycle leaves -/

/-- Settles O46: `syn_step` reloads or counts down a running counter, and only a start, which finds none running, loads it. -/
theorem periodCounter : Obligations.PeriodCounter := by
  intro s t hr h
  have hcursor := congrArg Prod.fst (cursorRegs_step hr h)
  by_cases hrun : s.synSt = .running
  · rw [if_neg (not_startsSession_of_running hrun _)] at hcursor
    rw [if_pos hrun]
    exact hcursor.trans (if_pos hrun)
  · rw [if_neg hrun]
    rw [apply_ite Prod.fst] at hcursor
    have hhold : (cursorRegs (sequencerWrites s (nextInputs s) s)).1 = s.pcnt := if_neg hrun
    rwa [hhold] at hcursor

/-- Settles O55: the host does not write the DAC's registers, and `syn_step` writes them by the firing and the accept. -/
theorem pendingDacWriteIsStable : Obligations.PendingDacWriteIsStable := by
  intro s t hr h
  have hregs := firingRegs_step hr h
  simp only [firingRegs, Prod.mk.injEq] at hregs
  obtain ⟨-, hvalid, hdata⟩ := hregs
  have haccept : (!(s.dacValid && (nextInputs s).dacReady) && s.dacValid) = (s.dacValid && !(nextInputs s).dacReady) := by
    cases s.dacValid <;> simp
  exact ⟨hdata, haccept ▸ hvalid⟩

/-- The index after an accepted firing as a number: legal parameters keep it from wrapping round 16 bits (R210). -/
theorem nextIdx_toNat {s : State} (hcfg : s.cfg.legal) (hs : SynInv s) (hc : s.synSt ≠ .uninit) :
    (nextIdx s).toNat = if s.idx.toNat + 1 = s.tblLen.toNat then 0 else s.idx.toNat + 1 := by
  obtain ⟨-, hdepth, hlt⟩ := hs.1 hc
  have hmax := tblDepth_le hcfg
  rw [nextIdx, apply_ite BitVec.toNat]
  refine ite_congr rfl (fun _ => rfl) fun hne => ?_
  exact BitVec.toNat_add_of_lt (show s.idx.toNat + 1 < 2 ^ 16 by omega)

theorem running_of_acceptedFiring {s : State} {x : Inputs} (h : acceptedFiring s x = true) : s.synSt = .running := by
  rw [acceptedFiring_eq, Bool.and_eq_true, fireCond_eq_true] at h
  obtain ⟨⟨hrun, -⟩, -⟩ := h
  exact hrun

theorem running_of_reentrantFiring {s : State} {x : Inputs} (h : reentrantFiring s x = true) : s.synSt = .running := by
  simp only [reentrantFiring, Bool.and_eq_true, beq_iff_eq] at h
  obtain ⟨⟨⟨hrun, -⟩, -⟩, -⟩ := h
  exact hrun

/-- A firing overlaps a pending write or is accepted, not both. -/
theorem not_accepted_of_reentrant {s : State} {x : Inputs} (h : reentrantFiring s x = true) :
    acceptedFiring s x = false := by
  simp only [reentrantFiring, Bool.and_eq_true] at h
  simp [acceptedFiring, h]

/-- Settles O60: an accepted firing and a start exclude each other, and a reentrant firing is neither. -/
theorem tableIndexMoves : Obligations.TableIndexMoves := by
  intro s t ⟨hcfg, _⟩ hs hr h
  have hcursor := congrArg Prod.snd (cursorRegs_step hr h)
  have hfires := step_synFires hr h
  have hnostart := not_startsSession_of_running (s := s) (x := nextInputs s)
  have hidx : t.idx = if StartsSession s (nextInputs s) then 0
      else if acceptedFiring s (nextInputs s) then nextIdx s else s.idx := hcursor.trans (apply_ite Prod.snd _ _ _)
  refine ⟨?_, hfires, fun hre => ?_⟩
  · cases hacc : acceptedFiring s (nextInputs s) with
    | true =>
      have hrun := running_of_acceptedFiring hacc
      rw [hidx, if_neg (hnostart hrun), if_pos hacc, if_pos rfl, nextIdx_toNat hcfg hs (by simp [hrun])]
    | false =>
      rw [hidx, hacc, apply_ite BitVec.toNat]
      rfl
  · have hacc := not_accepted_of_reentrant hre
    rw [hidx, hfires, hacc, if_neg (hnostart (running_of_reentrantFiring hre))]
    exact ⟨rfl, rfl⟩

end Sys2Proof.Machine
end

section
/-! PROOFS. A session that is neither reset nor stopped, cycle by cycle (44_synthesis_sequencer R211, R212, R228, R229): the
period counter counts down and reloads, and the accepted firings write the table's entries in turn. -/

namespace Sys2Proof.Machine
open Sys2Proof Sys2Proof.Claims Reference

/-! ## The ports in the cycles to come -/

/-- The port values of the next `k` cycles are listed, and each is as `P` says. -/
def Presents (P : Inputs → Prop) (k : Nat) (s : State) : Prop := k ≤ s.env.length ∧ ∀ x ∈ s.env.take k, P x

/-- No reset and no stop in this cycle. -/
def Undisturbed (x : Inputs) : Prop := x.rst = false ∧ commands x 4 = false

theorem presents_undisturbed {k : Nat} {s : State} (hq : quietFor k s) (hstop : ∀ x ∈ s.env.take k, commands x 4 = false) :
    Presents Undisturbed k s := by
  obtain ⟨hlisted, hquiet⟩ := hq
  exact ⟨hlisted, fun x hx => ⟨hquiet x hx, hstop x hx⟩⟩

/-- The next cycle takes the first of the listed port values and leaves the others. -/
theorem Presents.next {P : Inputs → Prop} {k : Nat} {s : State} (h : Presents P (k + 1) s) :
    P (nextInputs s) ∧ ∀ u, step s = .next u → Presents P k u := by
  obtain ⟨hlisted, hall⟩ := h
  obtain ⟨x, xs, henv⟩ := List.exists_cons_of_length_pos (l := s.env) (by omega)
  rw [henv] at hlisted
  rw [henv, List.take_succ_cons, List.forall_mem_cons] at hall
  obtain ⟨hx, hxs⟩ := hall
  have hnext : nextInputs s = x := by simp only [nextInputs, henv]
  refine ⟨hnext ▸ hx, fun u hu => ?_⟩
  have huenv : u.env = xs := by rw [step_env hu, henv, List.tail_cons]
  exact ⟨huenv ▸ Nat.le_of_succ_le_succ hlisted, huenv ▸ hxs⟩

/-! ## One cycle of a session -/

/-- A cycle of a session: the next state, the ports of the cycles after it, and in the sequencer's part what `syn_step` writes. -/
theorem session_step {k : Nat} {s : State} (hrun : s.synSt = .running) (hp : Presents Undisturbed (k + 1) s) :
    ∃ u, step s = .next u ∧ Presents Undisturbed k u ∧ synPart u = synPart (sequencerWrites s (nextInputs s) s) := by
  obtain ⟨⟨hr, hstop⟩, hrest⟩ := hp.next
  have hstep := step_eq_hostWrites hr
  exact ⟨_, hstep, hrest _ hstep, synPart_step_of_running hr hstop hrun hstep⟩

/-- What a session keeps: its state, its table and its period. -/
def sessionPart (s : State) := (s.cfg, s.synSt, s.tblMem, s.tblLen, s.synPeriod)

theorem sessionPart_of_synPart {s u : State} {x : Inputs} (h : synPart u = synPart (sequencerWrites s x s)) :
    sessionPart u = sessionPart s := by
  simp only [synPart, Prod.mk.injEq] at h
  obtain ⟨hcfg, hst, hmem, hlen, -, -, hper, -⟩ := h
  simp only [sessionPart, hcfg, hst, hmem, hlen, hper]
  rfl

/-! ## The cadence -/

/-- The period counter in a cycle of a session (R212). -/
theorem session_step_pcnt {k : Nat} {s : State} (hrun : s.synSt = .running) (hp : Presents Undisturbed (k + 1) s) :
    ∃ u, step s = .next u ∧ Presents Undisturbed k u ∧ u.synSt = .running ∧ u.synPeriod = s.synPeriod ∧
      u.pcnt = if s.pcnt = 0 then s.synPeriod - 1 else s.pcnt - 1 := by
  obtain ⟨u, hstep, hrest, hsyn⟩ := session_step hrun hp
  simp only [synPart, Prod.mk.injEq] at hsyn
  obtain ⟨-, hst, -, -, -, -, hper, hpcnt, -⟩ := hsyn
  exact ⟨u, hstep, hrest, hst.trans hrun, hper, hpcnt.trans (if_pos hrun)⟩

/-- Settles O44, by induction on the count: a cycle above 0 counts down to a session with one cycle less to its firing, and the
firing's cycle reloads. -/
theorem firingCadence : Obligations.FiringCadence := by
  intro n s hs hrun hn hq hstop
  have hp := presents_undisturbed hq hstop
  clear hq hstop
  induction n generalizing s with
  | zero =>
    obtain ⟨u, hstep, -, hurun, hper, hpcnt⟩ := session_step_pcnt hrun hp
    obtain ⟨-, -, hbounds⟩ := hs
    obtain ⟨hpos, -⟩ := hbounds hrun
    rw [if_pos (BitVec.eq_of_toNat_eq hn.symm)] at hpcnt
    refine ⟨fun k hk => ?_, u, run_succ_of_step 0 hstep, hurun, hper, ?_⟩
    · rw [Nat.le_zero.mp hk]
      exact ⟨s, rfl, hrun, rfl, hn.symm⟩
    · rw [hpcnt]
      exact BitVec.toNat_sub_of_le hpos
  | succ n ih =>
    obtain ⟨u, hstep, hrest, hurun, hper, hpcnt⟩ := session_step_pcnt hrun hp
    have hcount : s.pcnt ≠ 0 := fun hzero => by simp [hzero] at hn
    rw [if_neg hcount] at hpcnt
    have hless : n = u.pcnt.toNat := by rw [hpcnt]; bv_omega
    obtain ⟨hdown, t, hlast, hreload⟩ := ih u (stepKeepsSynInv s u hs hstep) hurun hless hrest
    rw [hper] at hreload hdown
    refine ⟨fun k hk => ?_, t, (run_succ_of_step (n + 1) hstep).trans hlast, hreload⟩
    cases k with
    | zero => exact ⟨s, rfl, hrun, rfl, hn.symm⟩
    | succ k =>
      obtain ⟨v, hv, hvrun, hvper, hvcnt⟩ := hdown k (Nat.le_of_succ_le_succ hk)
      exact ⟨v, (run_succ_of_step k hstep).trans hv, hvrun, hvper, by omega⟩

/-! ## What accepted firings write -/

/-- The `n` entries of the table from the index on, around the table (R228). -/
def entriesFromIdx (s : State) (n : Nat) : List Code :=
  (List.range n).map fun j => tblRead s ((s.idx.toNat + j) % s.tblLen.toNat)

/-- `t` is what cycles of the session of `s` leave whose accepted firings wrote the codes `cs`. -/
structure Played (s : State) (cs : List Code) (t : State) : Prop where
  session : sessionPart t = sessionPart s
  index : t.idx.toNat = (s.idx.toNat + cs.length) % s.tblLen.toNat
  firings : t.synFires = s.synFires + BitVec.ofNat 32 cs.length
  codes : cs = entriesFromIdx s cs.length

theorem Played.refl {s : State} (hidx : s.idx.toNat < s.tblLen.toNat) : Played s [] s where
  session := rfl
  index := (Nat.mod_eq_of_lt hidx).symm
  firings := by simp
  codes := rfl

/-- The entries from the index on, past the first `m`, are those from where `m` firings move the index. -/
theorem entriesFromIdx_add {s u : State} {m : Nat} (hsess : sessionPart u = sessionPart s)
    (hidx : u.idx.toNat = (s.idx.toNat + m) % s.tblLen.toNat) (n : Nat) :
    entriesFromIdx s (m + n) = entriesFromIdx s m ++ entriesFromIdx u n := by
  simp only [sessionPart, Prod.mk.injEq] at hsess
  obtain ⟨hcfg, -, hmem, hlen, -⟩ := hsess
  have hread : ∀ i, tblRead u i = tblRead s i := fun i => by simp only [tblRead, hcfg, hmem]
  simp only [entriesFromIdx, List.range_add, List.map_append, List.map_map, hread, hidx, hlen, Nat.mod_add_mod]
  simp only [Function.comp_def, Nat.add_assoc]

/-- What some cycles write and what the next write, one after the other. -/
theorem Played.trans {s u t : State} {cs ds : List Code} (h₁ : Played s cs u) (h₂ : Played u ds t) :
    Played s (cs ++ ds) t where
  session := h₂.session.trans h₁.session
  index := by
    have hsess := h₁.session
    simp only [sessionPart, Prod.mk.injEq] at hsess
    obtain ⟨-, -, -, hlen, -⟩ := hsess
    rw [h₂.index, h₁.index, hlen, Nat.mod_add_mod, List.length_append, Nat.add_assoc]
  firings := by rw [h₂.firings, h₁.firings, List.length_append, BitVec.ofNat_add, BitVec.add_assoc]
  codes := by
    rw [List.length_append, entriesFromIdx_add h₁.session h₁.index, ← h₁.codes, ← h₂.codes]

/-- One more, modulo the table length, is the index's comparison and increment (R210). -/
theorem nextIdx_toNat_eq_mod {s : State} (hcfg : s.cfg.legal) (hs : SynInv s) (hrun : s.synSt = .running) :
    (nextIdx s).toNat = (s.idx.toNat + 1) % s.tblLen.toNat := by
  have hc : s.synSt ≠ .uninit := by simp [hrun]
  obtain ⟨-, -, hlt⟩ := hs.1 hc
  rw [nextIdx_toNat hcfg hs hc]
  split
  next hlast => rw [hlast, Nat.mod_self]
  next hinner => exact (Nat.mod_eq_of_lt (by omega)).symm

/-- The code written by this cycle, where its firing is accepted. -/
def codeOfCycle (s : State) : List Code := if acceptedFiring s (nextInputs s) then [tblRead s s.idx.toNat] else []

/-- One cycle of a session writes the code of its accepted firing, if it has one (R214, R215). -/
theorem played_cycle {s u : State} (hcfg : s.cfg.legal) (hs : SynInv s) (hrun : s.synSt = .running)
    (h : synPart u = synPart (sequencerWrites s (nextInputs s) s)) : Played s (codeOfCycle s) u := by
  have hsess := sessionPart_of_synPart h
  simp only [synPart, Prod.mk.injEq] at h
  obtain ⟨-, -, -, -, -, -, -, -, hidx, hfires, -⟩ := h
  obtain ⟨-, -, hlt⟩ := hs.1 (by simp [hrun])
  rw [codeOfCycle]
  cases hacc : acceptedFiring s (nextInputs s) with
  | true =>
    simp only [sequencerWrites, hacc, if_true] at hidx hfires
    rw [if_pos rfl]
    exact {
      session := hsess
      index := by rw [hidx, nextIdx_toNat_eq_mod hcfg hs hrun, List.length_singleton]
      firings := hfires
      codes := by simp [entriesFromIdx, Nat.mod_eq_of_lt hlt] }
  | false =>
    simp only [sequencerWrites, hacc, Bool.false_eq_true, if_false] at hidx hfires
    rw [if_neg Bool.false_ne_true]
    exact {
      session := hsess
      index := by rw [hidx]; exact (Nat.mod_eq_of_lt hlt).symm
      firings := by simp [hfires]
      codes := rfl }

/-- The codes of a run are that of its first cycle and those of the others. -/
theorem codesWritten_succ {s u : State} (k : Nat) (hr : (nextInputs s).rst = false) (h : step s = .next u) :
    codesWritten (k + 1) s = codeOfCycle s ++ codesWritten k u := by
  obtain ⟨hdata, -⟩ := pendingDacWriteIsStable s u hr h
  simp only [codesWritten, h, codeOfCycle, hdata]
  cases acceptedFiring s (nextInputs s) <;> rfl

/-- A session that is neither reset nor stopped plays its table, whatever its period and the DAC are. -/
theorem run_played (k : Nat) {s : State} (hcfg : s.cfg.legal) (hs : SynInv s) (hrun : s.synSt = .running)
    (hp : Presents Undisturbed k s) :
    ∃ t, Sys2Proof.core.run k s = .next t ∧ Played s (codesWritten k s) t := by
  induction k generalizing s with
  | zero =>
    obtain ⟨-, -, hlt⟩ := hs.1 (by simp [hrun])
    exact ⟨s, rfl, .refl hlt⟩
  | succ k ih =>
    obtain ⟨u, hstep, hrest, hsyn⟩ := session_step hrun hp
    obtain ⟨⟨hr, -⟩, -⟩ := hp.next
    have hfirst := played_cycle hcfg hs hrun hsyn
    have hsess := hfirst.session
    simp only [sessionPart, Prod.mk.injEq] at hsess
    obtain ⟨hucfg, hust, -⟩ := hsess
    obtain ⟨t, ht, hothers⟩ := ih (hucfg ▸ hcfg) (stepKeepsSynInv s u hs hstep) (hust.trans hrun) hrest
    refine ⟨t, (run_succ_of_step k hstep).trans ht, ?_⟩
    rw [codesWritten_succ k hr hstep]
    exact hfirst.trans hothers

/-! ## A DAC that is always ready -/

/-- Of the host's transactions only the write of FAULT, which runs before the events, changes the register (60_exceptions R284). -/
theorem exec_late_fault {i : Instr} {s t : State} (hk : kind i ≠ .event) (hl : runsBeforeEvents i = false)
    (h : exec i s = .next t) : t.fault = s.fault := by
  cases exec_effect h with
  | clearFault => cases hl
  | reset | blockIgnored | blockReentry | blockAccepted | noBeat | beat | noFiring | firingReentry | firingAccepted
  | noDacAccept | dacAccept => exact absurd rfl hk
  | _ => rfl

/-- FAULT after a cycle without reset is the merge of 60_exceptions R284. -/
theorem step_fault {s t : State} (hr : (nextInputs s).rst = false) (h : step s = .next t) :
    t.fault = s.fault &&& ~~~clearMask (nextInputs s) ||| setAcq s (nextInputs s) ||| setSyn s (nextInputs s) := by
  rcases execIf_next.mp (step_late_of_stagesOf hr h) with ⟨hl, hexec⟩ | ⟨-, rfl⟩
  · obtain ⟨-, hlate⟩ := Bool.and_eq_true_iff.mp hl
    rw [exec_late_fault (kind_hostOp_ne_event _) (by simpa using hlate) hexec]
    rfl
  · rfl

/-- The adapter sets no sequencer bit. -/
theorem setAcq_synReentry (s : State) (x : Inputs) : (setAcq s x).getLsbD 2 = false := by
  unfold setAcq
  split_ifs <;> rfl

/-- With a ready DAC no firing is a reentry (R214). -/
theorem setSyn_of_ready {s : State} {x : Inputs} (h : x.dacReady = true) : setSyn s x = 0 := by
  simp [setSyn_eq, h]

/-- In a cycle with a ready DAC no reentry is raised. -/
theorem step_raises_no_reentry {s u : State} (hr : (nextInputs s).rst = false) (hd : (nextInputs s).dacReady = true)
    (h : step s = .next u) (hf : s.fault.getLsbD 2 = false) : u.fault.getLsbD 2 = false := by
  rw [step_fault hr h, setSyn_of_ready hd, BitVec.getLsbD_or, BitVec.getLsbD_or, BitVec.getLsbD_and, hf,
    setAcq_synReentry]
  rfl

/-- In a run with a ready DAC no reentry is raised. -/
theorem run_raises_no_reentry (k : Nat) {s t : State} (hp : Presents (fun x => x.rst = false ∧ x.dacReady = true) k s)
    (h : Sys2Proof.core.run k s = .next t) (hf : s.fault.getLsbD 2 = false) : t.fault.getLsbD 2 = false := by
  induction k generalizing s with
  | zero =>
    cases h
    exact hf
  | succ k ih =>
    obtain ⟨⟨hr, hd⟩, hrest⟩ := hp.next
    have hstep := step_eq_hostWrites hr
    have hothers := (run_succ_of_step (M := Sys2Proof.core) k hstep).symm.trans h
    exact ih (hrest _ hstep) hothers (step_raises_no_reentry hr hd hstep hf)

/-- With period 1 the counter is always at 0, so with a ready DAC every cycle is an accepted firing (R229). -/
theorem acceptedFiring_of_period_one {s : State} {x : Inputs} (hs : SynInv s) (hrun : s.synSt = .running)
    (hper : s.synPeriod = 1) (hd : x.dacReady = true) : acceptedFiring s x = true := by
  obtain ⟨-, -, hbounds⟩ := hs
  obtain ⟨-, hlt⟩ := hbounds hrun
  have hdue : s.pcnt = 0 := by
    rw [hper] at hlt
    bv_omega
  rw [acceptedFiring_eq, fireCond_eq_true.mpr ⟨hrun, hdue⟩, hd]
  simp

theorem length_codesWritten_of_period_one (k : Nat) {s : State} (hs : SynInv s) (hrun : s.synSt = .running)
    (hper : s.synPeriod = 1) (hp : Presents Undisturbed k s) (hd : Presents (fun x => x.dacReady = true) k s) :
    (codesWritten k s).length = k := by
  induction k generalizing s with
  | zero => rfl
  | succ k ih =>
    obtain ⟨u, hstep, hrest, hurun, huper, -⟩ := session_step_pcnt hrun hp
    obtain ⟨⟨hr, -⟩, -⟩ := hp.next
    obtain ⟨hready, hdrest⟩ := hd.next
    have hothers := ih (stepKeepsSynInv s u hs hstep) hurun (huper.trans hper) hrest (hdrest u hstep)
    rw [codesWritten_succ k hr hstep, codeOfCycle, if_pos (acceptedFiring_of_period_one hs hrun hper hready),
      List.length_append, hothers, List.length_singleton, Nat.add_comm]

/-! ## The wrap law -/

/-- After a whole table the index is back (R228). -/
theorem Played.idx_of_whole_table {s t : State} {cs : List Code} (h : Played s cs t) (hidx : s.idx.toNat < s.tblLen.toNat)
    (hn : cs.length = s.tblLen.toNat) : t.idx = s.idx := by
  apply BitVec.eq_of_toNat_eq
  rw [h.index, hn, Nat.add_mod_right, Nat.mod_eq_of_lt hidx]

/-- Settles O45: what each cycle writes composes to what the run writes, and a ready DAC leaves no firing unaccepted. -/
theorem wrapLaw : Obligations.WrapLaw := by
  intro k s hcfg hs hrun hq hstop
  have hp := presents_undisturbed hq hstop
  obtain ⟨hlisted, hquiet⟩ := hq
  obtain ⟨-, -, hidx⟩ := hs.1 (by simp [hrun])
  obtain ⟨t, ht, hplayed⟩ := run_played k hcfg hs hrun hp
  have hsess := hplayed.session
  simp only [sessionPart, Prod.mk.injEq] at hsess
  obtain ⟨-, hst, -, hlen, -⟩ := hsess
  refine ⟨t, ht, hst.trans hrun, hlen, hplayed.index, hplayed.firings, hplayed.codes, hplayed.idx_of_whole_table hidx,
    fun hready => ⟨fun hf => ?_, fun hper => ?_⟩⟩
  · exact run_raises_no_reentry k ⟨hlisted, fun x hx => ⟨hquiet x hx, hready x hx⟩⟩ ht hf
  · exact length_codesWritten_of_period_one k hs hrun hper hp ⟨hlisted, hready⟩

end Sys2Proof.Machine
end

section
/-! PROOFS. The sequencer's operations one by one (44_synthesis_sequencer R213 to R227). -/

namespace Sys2Proof.Machine
open Sys2Proof Sys2Proof.Claims

/-! ## Reads -/

/-- The DAC_OUT word as the sum of its fields (R225). -/
theorem dacOutWord_toNat (s : State) : (dacOutWord s).toNat = s.dacData.toNat + 2 ^ 16 * s.dacValid.toNat := by
  simp only [dacOutWord, toNat_append_eq_add, BitVec.toNat_ofBool, BitVec.toNat_ofNat]
  omega

/-- Settles O14: each word is a register, zero-extended, or the DAC's two packed side by side. -/
theorem sequencerReads : Obligations.SequencerReads := by
  refine ⟨⟨readAt_of_decodeRead rfl, readAt_of_decodeRead rfl, readAt_of_decodeRead rfl, readAt_of_decodeRead rfl,
    readAt_of_decodeRead rfl, readAt_of_decodeRead rfl⟩, fun s => ⟨readsAs_of_zeroExtend (by decide) rfl,
      readsAs_of_word rfl, readsAs_of_word rfl, ?_, readsAs_of_zeroExtend (by decide) rfl, readsAs_of_word rfl⟩⟩
  rw [← dacOutWord_toNat]
  exact readsAs_of_word rfl

/-! ## Configuration writes and commands -/

/-- Without a running session a configuration write is performed. -/
theorem writeUnless_synLocked_of_not_running {s : State} (h : s.synSt ≠ .running) (t : State) :
    writeUnless (synLocked s) s t = .next { t with lastRes := .ok } := by
  rw [synLocked, writeUnless_decide, if_neg h]

/-- In a running session a configuration write is refused. -/
theorem writeUnless_synLocked_of_running {s : State} (h : s.synSt = .running) (t : State) :
    writeUnless (synLocked s) s t = .next { s with lastRes := .stateErr } := by
  rw [synLocked, writeUnless_decide, if_pos h]

/-- Settles O25: the two writes have one lock, the running session. -/
theorem synthesisConfigurationWrites : Obligations.SynthesisConfigurationWrites := by
  refine ⟨⟨writeAt_of_decodeWrite fun _ => rfl, writeAt_of_decodeWrite fun _ => rfl⟩,
    fun s c p => ⟨fun hidle => ⟨?_, ?_⟩, fun hrun => ⟨?_, ?_⟩⟩⟩
  · exact writeUnless_synLocked_of_not_running hidle _
  · exact writeUnless_synLocked_of_not_running hidle _
  · exact writeUnless_synLocked_of_running hrun _
  · exact writeUnless_synLocked_of_running hrun _

/-- A period that is not 0 reloads the counter with one less (R212). -/
theorem sub_one_eq_ofNat {p : Word} (hp : p ≠ 0) : p - 1 = BitVec.ofNat 32 (p.toNat - 1) := by bv_omega

/-- With a table committed and no session running, only the period decides on a start (R220). -/
theorem exec_cmdSynStart_of_idle {s : State} (h : s.synSt = .ready ∨ s.synSt = .stopped) :
    exec .cmdSynStart s = .next (
      if s.synPeriod = 0 then { s with lastRes := .cfgErr }
      else { s with synSt := .running, idx := 0, pcnt := s.synPeriod - 1, lastRes := .ok }) := by
  have hidle : s.synSt ≠ .running ∧ s.synSt ≠ .uninit := by rcases h with h | h <;> simp [h]
  obtain ⟨hrun, huninit⟩ := hidle
  rw [exec_cmdSynStart_eq, if_neg hrun, if_neg huninit]

/-- Settles O26: the checks of R220 in their order. -/
theorem synthesisStart : Obligations.SynthesisStart := by
  refine ⟨decode_writeWord 0x02 3, fun s => ⟨fun hrun => ?_, fun hu => ?_, fun hidle hper => ?_, fun hidle hper => ?_⟩⟩
  · rw [exec_cmdSynStart_eq, if_pos hrun]
  · rw [exec_cmdSynStart_eq, if_neg (by simp [hu]), if_pos hu]
  · rw [exec_cmdSynStart_of_idle hidle, if_pos hper]
  · rw [exec_cmdSynStart_of_idle hidle, if_neg hper, sub_one_eq_ofNat hper]

/-- Settles O27: the word is that of command 4, and the command's arm has no check. -/
theorem synthesisStop : Obligations.SynthesisStop := by
  refine ⟨decode_writeWord 0x02 4, fun s => ⟨fun hrun => ?_, exec_cmdSynStop_of_not_running⟩⟩
  rw [exec_cmdSynStop_eq, if_pos hrun]

/-! ## The firing and the DAC's accept -/

/-- Settles O31: the pending write and the DAC decide which of the two a due firing is. -/
theorem firing : Obligations.Firing := by
  intro s hrun hzero
  have hdue := fireCond_eq_true.mpr ⟨hrun, hzero⟩
  refine ⟨fun hfree => ?_, fun hpending hbusy => ?_⟩
  · have haccepted : ¬(s.dacValid && !s.inp.dacReady) = true := by rcases hfree with h | h <;> simp [h]
    rw [exec_evFire_of_due hdue, if_neg haccepted]
    rfl
  · rw [exec_evFire_of_due hdue, if_pos (by simp [hpending, hbusy])]
    rfl

/-- Settles O32: the accept needs both the pending write and the DAC. -/
theorem dacAccept : Obligations.DacAccept := by
  intro s
  have harm : exec .evDacAccept s = execEvDacAccept s := rfl
  refine ⟨fun hpending hready => ?_, fun hnone => ?_⟩
  · rw [harm, execEvDacAccept, if_pos (by simp [hpending, hready])]
  · rw [harm, execEvDacAccept, if_neg (by rcases hnone with h | h <;> simp [h])]

end Sys2Proof.Machine
end

section
/-! PROOFS. Exceptions (60_exceptions): nothing stops the block, the bits of FAULT in a cycle, what a refusal changes, and what
a completion sees. -/

namespace Sys2Proof.Machine
open Sys2Proof Sys2Proof.Claims Reference

/-! ## Nothing stops the block -/

/-- Every operation answers a next state (60_exceptions R280, R286). -/
theorem exists_exec_eq_next (i : Instr) (s : State) : ∃ t, exec i s = .next t := by
  cases i with
  | rdRbData => exact ⟨_, exec_rdRbData_eq s⟩
  | cmdAcqStart => exact ⟨_, exec_cmdAcqStart_eq s⟩
  | cmdSynStart => exact ⟨_, exec_cmdSynStart_eq s⟩
  | cmdTblCommit => exact ⟨_, exec_cmdTblCommit_eq s⟩
  | evDmaDone p l => exact ⟨_, exec_evDmaDone_eq p l s⟩
  | evCopyBeat d =>
    cases hb : s.acqBusy with
    | true => exact ⟨_, exec_evCopyBeat_of_busy hb⟩
    | false => exact ⟨s, if_neg (Bool.eq_false_iff.mp hb)⟩
  | evFire =>
    cases hf : fireCond s with
    | true => exact ⟨_, exec_evFire_of_due hf⟩
    | false => exact ⟨s, if_neg (Bool.eq_false_iff.mp hf)⟩
  | _ => exact ⟨_, rfl⟩

/-- Settles O8: a reset cycle is one operation, and any other is its stages and the host's late write. -/
theorem nothingStopsTheBlock : Obligations.NothingStopsTheBlock := by
  refine ⟨exists_exec_eq_next, fun s => ?_⟩
  cases hr : (nextInputs s).rst with
  | true =>
    rw [step_of_reset hr]
    exact exists_exec_eq_next _ _
  | false => exact ⟨_, step_eq_hostWrites hr⟩

/-! ## The bits of FAULT -/

/-- A mask clears its own bits and leaves the others. -/
theorem getLsbD_and_not (f m : FaultBits) (b : Nat) : (f &&& ~~~m).getLsbD b = (f.getLsbD b && !m.getLsbD b) := by
  rw [BitVec.getLsbD_and, BitVec.getLsbD_not]
  by_cases hb : b < 3
  · rw [decide_eq_true hb, Bool.true_and]
  · rw [BitVec.getLsbD_of_ge f b (by omega), Bool.false_and, Bool.false_and]

/-- Settles O18: the mask is the low part of WDATA, and the arm of the write clears by it. -/
theorem faultWriteClearsTheMask : Obligations.FaultWriteClearsTheMask :=
  ⟨writeAt_of_decodeWrite fun _ => rfl, fun m s => ⟨s.fault &&& ~~~m, rfl, getLsbD_and_not s.fault m⟩⟩

/-- The host clears a bit by writing FAULT with that bit of WDATA set. -/
theorem getLsbD_clearMask (x : Inputs) {b : Nat} (hb : b < 3) :
    (clearMask x).getLsbD b = (x.hSel && x.hWe && x.hAddr == 0x04 && x.hWdata.getLsbD b) := by
  unfold clearMask
  split
  next h =>
    obtain ⟨hsel, hwe, haddr⟩ := h
    simp [hsel, hwe, haddr, hb]
  next h =>
    have hnone : (x.hSel && x.hWe && x.hAddr == 0x04) = false := by
      rw [Bool.eq_false_iff]
      simpa [and_assoc] using h
    rw [hnone]
    exact BitVec.getLsbD_zero

/-- A bit set on a condition. -/
theorem getLsbD_ite_zero (c : Bool) (f : FaultBits) (b : Nat) :
    (if c then f else 0).getLsbD b = (c && f.getLsbD b) := by
  cases c with
  | true => rfl
  | false => exact BitVec.getLsbD_zero

/-- During a copy a completion is a reentry (43_acquisition_adapter R184). -/
theorem setAcq_of_busy {s : State} (x : Inputs) (hb : s.acqBusy = true) :
    setAcq s x = if x.dmaDone && s.acqRun then acqReentry else 0 := by
  simp [setAcq, hb]

/-- Without a copy a completion is accepted, and its length is checked (43_acquisition_adapter R182). -/
theorem setAcq_of_idle {s : State} (x : Inputs) (hb : s.acqBusy = false) :
    setAcq s x = if acceptedBlock s x && x.dmaLen != s.acqBlk then acqDesync else 0 := by
  simp [setAcq, acceptedBlock, hb, ite_and]

/-- ACQ_REENTRY is bit 0 of FAULT, and no other event of the adapter sets it (60_exceptions R283). -/
theorem setAcq_acqReentry (s : State) (x : Inputs) :
    (setAcq s x).getLsbD 0 = (x.dmaDone && s.acqRun && s.acqBusy) := by
  cases hb : s.acqBusy with
  | true =>
    rw [setAcq_of_busy x hb, getLsbD_ite_zero]
    rfl
  | false =>
    rw [setAcq_of_idle x hb, getLsbD_ite_zero, Bool.and_false]
    exact Bool.and_false _

/-- ACQ_DESYNC is bit 1 of FAULT, and no other event of the adapter sets it (60_exceptions R283). -/
theorem setAcq_acqDesync (s : State) (x : Inputs) :
    (setAcq s x).getLsbD 1 = (acceptedBlock s x && x.dmaLen != s.acqBlk) := by
  cases hb : s.acqBusy with
  | true =>
    have hnone : acceptedBlock s x = false := by simp [acceptedBlock, hb]
    rw [setAcq_of_busy x hb, getLsbD_ite_zero, hnone, Bool.false_and]
    exact Bool.and_false _
  | false =>
    rw [setAcq_of_idle x hb, getLsbD_ite_zero]
    exact Bool.and_true _

/-- The sequencer sets SYN_REENTRY alone, at a reentrant firing (44_synthesis_sequencer R214). -/
theorem getLsbD_setSyn (s : State) (x : Inputs) (b : Nat) :
    (setSyn s x).getLsbD b = (reentrantFiring s x && synReentry.getLsbD b) :=
  getLsbD_ite_zero (reentrantFiring s x) synReentry b

/-- A bit of FAULT after a cycle: kept unless cleared, or set by the adapter or the sequencer. -/
theorem step_getLsbD_fault {s t : State} (hr : (nextInputs s).rst = false) (h : step s = .next t) (b : Nat) :
    t.fault.getLsbD b =
      ((s.fault.getLsbD b && !(clearMask (nextInputs s)).getLsbD b) ||
        ((setAcq s (nextInputs s)).getLsbD b || (reentrantFiring s (nextInputs s) && synReentry.getLsbD b))) := by
  rw [step_fault hr h, BitVec.getLsbD_or, BitVec.getLsbD_or, getLsbD_and_not, getLsbD_setSyn, Bool.or_assoc]

/-- Settles O19: each bit is set by its own event alone, and a write of FAULT produces no result. -/
theorem faultMergeSetWins : Obligations.FaultMergeSetWins := by
  intro s t hr h x cleared
  have hadapter : ∀ b, synReentry.getLsbD b = false → t.fault.getLsbD b =
      ((s.fault.getLsbD b && !(clearMask x).getLsbD b) || (setAcq s x).getLsbD b) := fun b hb => by
    rw [step_getLsbD_fault hr h, hb, Bool.and_false, Bool.or_false]
  refine ⟨?_, ?_, ?_, fun _ _ haddr => ?_⟩
  · rw [hadapter 0 rfl, getLsbD_clearMask x (by decide), setAcq_acqReentry]
  · rw [hadapter 1 rfl, getLsbD_clearMask x (by decide), setAcq_acqDesync]
  · have hsyn : (reentrantFiring s x && synReentry.getLsbD 2) = reentrantFiring s x := Bool.and_true _
    rw [step_getLsbD_fault hr h, getLsbD_clearMask x (by decide), setAcq_synReentry, hsyn, Bool.false_or]
  · have hnone : producesResult x = false := Bool.eq_false_iff.mpr fun hp => by
      obtain ⟨-, -, hf⟩ := (producesResult_iff x).mp hp
      exact hf haddr
    exact (onlyResultWritesSetLastRes s t hr h).1 hnone

/-! ## Refusals -/

/-- A host write that runs late and leaves another code than OK has changed nothing but the code (60_exceptions R281). -/
theorem exec_write_of_not_ok {i : Instr} {s t : State} (hk : kind i = .write) (hl : runsBeforeEvents i = false)
    (h : exec i s = .next t) (hc : t.lastRes ≠ .ok) : t = s.setRes t.lastRes := by
  cases exec_effect h with
  | refused | ignored | reserved => rfl
  | clearFault => cases hl
  | read _ hr => exact absurd (hr.symm.trans hk) nofun
  | pop | reset | blockIgnored | blockReentry | blockAccepted | noBeat | beat | noFiring | firingReentry | firingAccepted
  | noDacAccept | dacAccept => cases hk
  | _ => exact absurd rfl hc

/-- The state whose next cycle has the same ports but for the host's transaction, of which it has none. -/
def withoutTransaction (s : State) : State := { s with env := { nextInputs s with hSel := false } :: s.env.tail }

/-- The state with other sampled inputs, which the stages of a cycle carry along. -/
def State.withInputs (s : State) (x : Inputs) : State := { s with inp := x }

/-- Inputs exchanged and put back leave the state. -/
theorem setRes_withInputs_same {s : State} {x : Inputs} (h : s.inp = x) (y : Inputs) (c : ResultCode) :
    ({ s.withInputs y with lastRes := c, inp := x } : State) = s.setRes c := by
  subst h
  rfl

theorem withFault_withInputs (s : State) (x : Inputs) (f : FaultBits) :
    (s.withInputs x).withFault f = (s.withFault f).withInputs x := rfl

theorem rbPush_withInputs (s : State) (x : Inputs) (d : Sample) :
    rbPush (s.withInputs x) d = (rbPush s d).withInputs x := rfl

theorem adapterWrites_withInputs (s : State) (x y : Inputs) (t : State) :
    adapterWrites (withoutTransaction s) { x with hSel := false } (t.withInputs y) =
      (adapterWrites s x t).withInputs y := rfl

theorem sequencerWrites_withInputs (s : State) (x y : Inputs) (t : State) :
    sequencerWrites (withoutTransaction s) { x with hSel := false } (t.withInputs y) =
      (sequencerWrites s x t).withInputs y := rfl

/-- A write other than of FAULT has no part in the stages before it: they leave what they leave without it. -/
theorem stagesOf_withoutTransaction {s : State} (hwe : (nextInputs s).hWe = true) (hf : (nextInputs s).hAddr ≠ 0x04) :
    stagesOf (withoutTransaction s) (nextInputs (withoutTransaction s)) =
      (stagesOf s (nextInputs s)).withInputs (nextInputs (withoutTransaction s)) := by
  have hclear : ¬((nextInputs s).hSel = true ∧ (nextInputs s).hWe = true ∧ (nextInputs s).hAddr = 0x04) :=
    fun ⟨_, _, ha⟩ => hf ha
  have hinp : nextInputs (withoutTransaction s) = { nextInputs s with hSel := false } := rfl
  have hbegin : tick (beginCycle (withoutTransaction s)) =
    (tick (beginCycle s)).withInputs (nextInputs (withoutTransaction s)) := rfl
  have hbusy : (withoutTransaction s).acqBusy = s.acqBusy := rfl
  unfold stagesOf sampledOf
  rw [earlyOf_of_none (by simp [hwe]) hclear, earlyOf_of_none (by simp [hinp]) (by simp [hinp]),
    and_not_clearMask _ hclear, and_not_clearMask _ (by simp [hinp]), hbegin, hbusy, hinp]
  cases s.acqBusy with
  | false =>
    simp only [Bool.false_eq_true, if_false]
    rw [adapterWrites_withInputs, withFault_withInputs, sequencerWrites_withInputs]
    rfl
  | true =>
    simp only [if_true]
    rw [rbPush_withInputs, adapterWrites_withInputs, withFault_withInputs, sequencerWrites_withInputs]
    rfl

/-- Settles O52: the stages before the write do not see it, and a refused write changes only the code. -/
theorem refusedWriteChangesOnlyLastRes : Obligations.RefusedWriteChangesOnlyLastRes := by
  intro s t hr hp h hc
  obtain ⟨⟨-, hwe⟩, -, hf⟩ := (producesResult_iff _).mp hp
  have hwrite : kind (hostOp (nextInputs s)) = .write := by rw [kind_hostOp, if_pos hwe]
  have hcode : t = (stagesOf s (nextInputs s)).setRes t.lastRes := by
    rcases execIf_next.mp (step_late_of_stagesOf hr h) with ⟨hl, hexec⟩ | ⟨-, rfl⟩
    · obtain ⟨-, hlate⟩ := Bool.and_eq_true_iff.mp hl
      exact exec_write_of_not_ok hwrite (by simpa using hlate) hexec hc
    · rfl
  have hinp : (stagesOf s (nextInputs s)).inp = nextInputs s := sampledOf_inp s (nextInputs s)
  refine ⟨stagesOf (withoutTransaction s) (nextInputs (withoutTransaction s)),
    step_eq_hostWrites (s := withoutTransaction s) hr, ?_⟩
  rw [stagesOf_withoutTransaction hwe hf]
  exact hcode.trans (setRes_withInputs_same hinp _ _).symm

/-! ## Completions -/

/-- Settles O53: without a copy the adapter's registers are those of the pre-state or of the block it accepts, and no host
transaction writes them. -/
theorem completionSeesThePreState : Obligations.CompletionSeesThePreState := by
  intro s t hr hidle h
  have hregs := adapterRegs_step hr h
  simp only [adapterRegs, adapterWrites, lastBeat_of_idle hidle, hidle, Prod.mk.injEq] at hregs
  obtain ⟨hbusy, hbase, hlen, hidx, -⟩ := hregs
  have hbegins : t.acqBusy = beginsCopy s (nextInputs s) := by
    rw [hbusy]
    cases beginsCopy s (nextInputs s) <;> rfl
  refine ⟨?_, fun hb => ?_⟩
  · simp [hbegins, beginsCopy, acceptedBlock, hidle]
  · rw [hbegins] at hb
    simp only [hb, Bool.or_true, if_true] at hbase hlen hidx
    exact ⟨hlen, hidx, hbase⟩

end Sys2Proof.Machine
end

section
/-! PROOFS. Reset (70_reset_and_hazards R310): EV_RESET writes every register, a cycle with `rst` is EV_RESET alone, and the
registers it writes meet the invariants. -/

namespace Sys2Proof.Machine
open Sys2Proof

/-! ## The operation and its cycle -/

/-- Settles O33: EV_RESET writes every field that is neither a RAM, a parameter nor a port. -/
theorem resetValues : Obligations.ResetValues := fun _ => rfl

/-- Settles O9: the cycle samples its inputs and drives its outputs, then performs EV_RESET alone, which leaves both. -/
theorem resetCycleOverridesEverything : Obligations.ResetCycleOverridesEverything := by
  intro s hr
  rw [step_of_reset hr, resetValues (beginCycle s)]
  rfl

/-! ## The invariants at reset -/

/-- The parameters of the reset state are in the ranges of 00_scope R6. -/
theorem reset_cfg_legal : State.reset.cfg.legal := by decide

/-- No copy is in progress, and the copy counter is 0. -/
theorem reset_acqInv : AcqInv State.reset := ⟨nofun, fun _ => rfl⟩

/-- No table is committed, and the index is 0. -/
theorem reset_synInv : SynInv State.reset := ⟨fun hcommitted => absurd rfl hcommitted, fun _ => rfl, nofun⟩

/-- No RAM word has been written, and the registers of parameter width are 0. -/
theorem reset_widthInv : WidthInv State.reset := by
  obtain ⟨hrb, htbl⟩ := reset_rams_wf
  exact ⟨reset_cfg_legal, ⟨hrb, nofun⟩, ⟨htbl, nofun⟩, tblDepth_pos _, Nat.two_pow_pos _, Nat.zero_le _⟩

/-- Neither a push nor a sample has been counted. -/
theorem reset_pushCountInv : PushCountInv State.reset := ⟨reset_cfg_legal, (Nat.zero_mod _).symm⟩

/-- Settles O39: the buffer is empty, adapter and sequencer are idle, no RAM word is written and nothing is counted. -/
theorem resetMeetsTheInvariants : Obligations.ResetMeetsTheInvariants :=
  ⟨ringInv_of_wp_rp_zero reset_cfg_legal rfl rfl, reset_acqInv, reset_synInv, reset_widthInv, reset_pushCountInv⟩

end Sys2Proof.Machine
end
